-- ==== Sys2Proof/Word.lean ====
section
/-! DEFINITION. The words of the SDS021 frame codec: the 8-bit byte is the addressable unit
everywhere, and 16 bits is the widest quantity (20_memory.md R41, 00_scope.md R10). -/

namespace Sys2Proof

/-- A byte, an unsigned integer 0..255; bit 7 is the most significant (R10). -/
abbrev Byte := BitVec 8

/-- A 16-bit field: an address, a device id or a raw reading (R41). -/
abbrev Word16 := BitVec 16

end Sys2Proof
end

