-- ==== Sys2Proof/Config.lean ====
section
/-! DEFINITION. What an implementation fixes: the constants of 00_scope.md R5, the parameters of R6 as the
fields of `Params` (the values this hardware has stand in Machine/Layout.lean) and the free values
(opaque constants without a body, so that nothing can be proved of their values). -/

namespace Sys2Proof

/-- Which wire byte of a PM reading is its high byte (R6, R44). -/
inductive PmOrder where
  | hiFirst
  | loFirst
deriving DecidableEq, Repr, Inhabited

/-- Three version bytes, the content of `FW[0..2]` (R30). -/
structure Firmware where
  v0 : Byte
  v1 : Byte
  v2 : Byte
deriving DecidableEq, Repr, Inhabited

/-- The parameters of R6, which "a model takes as a configuration field (an argument)": every definition
that depends on one takes it, or all of them, as an argument; a step and a meaning take them in the
state's field `params` (log 29). -/
structure Params where
  /-- `PM_ORDER`, OPEN (R44, D5). -/
  pmOrder : PmOrder
  /-- `ACT_FIRMWARE`: the action code that marks a firmware-version reply (D26). -/
  actFirmware : Byte
  /-- `FW_RESET`, OPEN: the reset value of `FW` (R30, D17). -/
  fwReset : Firmware
  /-- `EXTRA_AT_VALUE`: the frame byte that carries the one value byte of SETMODE, SETSTATE and
  SETINTERVAL (D7). -/
  extraAtValue : Nat
  /-- `EXTRA_AT_NEWID`, high byte: where SETID places the high byte of the new id (D7). -/
  extraAtNewIdHi : Nat
  /-- `EXTRA_AT_NEWID`, low byte (D7). -/
  extraAtNewIdLo : Nat
  /-- `REPLY_VALUE_SEL`: which of value0..value2 feeds MODE, POWER and INTERVAL (D14). -/
  replyValueSel : Fin 3
deriving DecidableEq, Repr

namespace Config

/-! Constants of R5. The lengths `CMD_LEN` = 19 and `IN_LEN` = 10 and the checksum ranges stand as literals. -/

/-- `HEAD`, the head sentinel of both frame shapes. -/
abbrev headByte : Byte := 0xAA#8
/-- `TAIL`, the tail sentinel of both frame shapes. -/
abbrev tailByte : Byte := 0xAB#8
/-- `CMD_ID`, byte 1 of a command frame. -/
abbrev cmdId : Byte := 0xB4#8
/-- `DATA_ID`, the command-id of a Data frame. -/
abbrev dataId : Byte := 0xC0#8
/-- `REPLY_ID`, the command-id of a Reply frame. -/
abbrev replyId : Byte := 0xC5#8
/-- `BROADCAST`, the address every sensor answers to. -/
abbrev broadcast : Word16 := 0xFFFF#16
/-- `ACT_MODE`. -/
abbrev actMode : Byte := 0x02#8
/-- `ACT_QUERY`. -/
abbrev actQuery : Byte := 0x04#8
/-- `ACT_ID`. -/
abbrev actId : Byte := 0x05#8
/-- `ACT_STATE`. -/
abbrev actState : Byte := 0x06#8
/-- `ACT_INTERVAL`. -/
abbrev actInterval : Byte := 0x08#8
/-- `INTERVAL_MIN`, minutes. -/
abbrev intervalMin : Int := 0
/-- `INTERVAL_MAX`, minutes. -/
abbrev intervalMax : Int := 30

/-! The parameters of R6 that the spec leaves OPEN, and the free values. -/

/-- `PM_ORDER`, OPEN (R44, D5); assumption log 1. -/
opaque pmOrder : PmOrder

/-- `FW_RESET`, OPEN: byte `k` of the reset value of `FW` (R30, D17); assumption log 2. -/
opaque fwReset (k : Nat) : Byte

/-- The draw of `PM25` at the reset numbered `draw` (R26, U2); assumption log 3. -/
opaque resetPm25 (draw : Nat) : Word16

/-- The draw of `PM10` at the reset numbered `draw` (R26, U2); assumption log 3. -/
opaque resetPm10 (draw : Nat) : Word16

/-- Byte `k` of the unspecified content of `FB` after the reset numbered `draw` (R21, U4);
assumption log 4. -/
opaque resetFb (draw k : Nat) : Byte

/-- Byte `k` of the unspecified content of `TB` after the reset numbered `draw` (R22, U4);
assumption log 4. -/
opaque resetTb (draw k : Nat) : Byte

/-- Which of several held requests is served next (R184, U16): an index that nothing constrains;
assumption log 6. -/
opaque servingOrder (draw : Nat) : Nat

end Config
end Sys2Proof
end

