-- ==== Sys2Proof/Syntax.lean ====
section
/-! DEFINITION. The two frame formats as records (30_encoding.md R61, R62), the requests of port OP
(R78) and `Instr`, one constructor for each row of spec/opcode_table.json. -/

namespace Sys2Proof

/-- The eleven extra bytes, frame bytes 4..14 of a command frame (R67). -/
structure Extra where
  e0 : Byte
  e1 : Byte
  e2 : Byte
  e3 : Byte
  e4 : Byte
  e5 : Byte
  e6 : Byte
  e7 : Byte
  e8 : Byte
  e9 : Byte
  e10 : Byte
deriving DecidableEq, Repr

/-- Format `CMD19`, the nineteen bytes of a command frame in wire order (R61). -/
structure CmdFrame where
  head : Byte
  command : Byte
  action : Byte
  set : Byte
  extra : Extra
  addrHi : Byte
  addrLo : Byte
  checksum : Byte
  tail : Byte
deriving DecidableEq, Repr

/-- Format `IN10`, the ten bytes of an inbound frame in wire order (R62); `p0`..`p3` are
`payload[0..3]`, bytes 2..5. -/
structure InFrame where
  head : Byte
  commandId : Byte
  p0 : Byte
  p1 : Byte
  p2 : Byte
  p3 : Byte
  idHi : Byte
  idLo : Byte
  checksum : Byte
  tail : Byte
deriving DecidableEq, Repr

/-- The two reasons of `Invalid` (42_decoder.md R116). -/
inductive InvalidReason where
  | badChecksum
  | unknownCommand
deriving DecidableEq, Repr

/-- The tagged result of `PARSE` (R110). -/
inductive ParseResult where
  | dataReading (pm25Raw pm10Raw deviceId : Word16)
  | replyAck (action value0 value1 value2 : Byte) (deviceId : Word16)
  | invalid (reason : InvalidReason)
deriving DecidableEq, Repr

/-- The names by which port OP selects an operation (R78; there is no numeric select, D3). -/
inductive OpName where
  | checksum | validate | build | parse | drain
  | setId | setMode | setState | setInterval | query
  | rdDevid | rdMode | rdPower | rdInterval | rdPm25 | rdPm10
deriving DecidableEq, Repr

/-- One operand of a request at port OP. -/
inductive Operand where
  | bytes (l : List Byte)
  | byte (b : Byte)
  | int (v : Int)
  | bool (b : Bool)
deriving DecidableEq, Repr

/-- One request at port OP: a name and its operands in the order of R78. -/
structure OpRequest where
  name : OpName
  operands : List Operand
deriving DecidableEq, Repr

/-- The instructions: one constructor for each row of spec/opcode_table.json, in the table's order.

A frame row's constructor carries the operand bytes its mask leaves free, less the checksum byte
where the row's constraint determines it. An `addr` of `none` is the default of R140. -/
inductive Instr where
  /-- `CMD.MODE` (R144). -/
  | cmdMode (passive : Bool) (addr : Word16)
  /-- `CMD.QUERY` (R147). -/
  | cmdQuery (addr : Word16)
  /-- `CMD.ID` (R143). -/
  | cmdId (newId : Word16) (addr : Word16)
  /-- `CMD.STATE` (R145). -/
  | cmdState (awake : Bool) (addr : Word16)
  /-- `CMD.INTERVAL` (R146): frame byte 4 is at most 0x1E. -/
  | cmdInterval (minutes : Byte) (addr : Word16)
  /-- `CMD.ANY` (R100): every other frame BUILD can produce. -/
  | cmdAny (action : Byte) (set : Bool) (extra : Extra) (addr : Word16)
  /-- `IN.BADSUM` (R111): byte 8 differs from the sum of bytes 2..7. -/
  | inBadsum (commandId p0 p1 p2 p3 : Byte) (id : Word16) (checksum tail : Byte)
  /-- `IN.DATA` (R112): `w2 w3` are the wire bytes of PM2.5 and `w4 w5` those of PM10. -/
  | inData (w2 w3 w4 w5 : Byte) (id : Word16) (tail : Byte)
  /-- `IN.REPLY.MODE` (R114). -/
  | inReplyMode (value0 value1 value2 : Byte) (id : Word16) (tail : Byte)
  /-- `IN.REPLY.ID` (R114). -/
  | inReplyId (value0 value1 value2 : Byte) (id : Word16) (tail : Byte)
  /-- `IN.REPLY.STATE` (R114). -/
  | inReplyState (value0 value1 value2 : Byte) (id : Word16) (tail : Byte)
  /-- `IN.REPLY.FIRMWARE` (R114). -/
  | inReplyFirmware (value0 value1 value2 : Byte) (id : Word16) (tail : Byte)
  /-- `IN.REPLY.INTERVAL` (R114). -/
  | inReplyInterval (value0 value1 value2 : Byte) (id : Word16) (tail : Byte)
  /-- `IN.REPLY.OTHER` (R114): any action no earlier row matches. -/
  | inReplyOther (action value0 value1 value2 : Byte) (id : Word16) (tail : Byte)
  /-- `IN.UNKNOWN` (R116): a correct checksum under a command-id that is neither 0xC0 nor 0xC5. -/
  | inUnknown (commandId p0 p1 p2 p3 : Byte) (id : Word16) (tail : Byte)
  /-- `CHECKSUM` (R90). -/
  | checksum (buf : List Byte) (start stop : Int)
  /-- `VALIDATE` (R92). -/
  | validate (buf : List Byte) (start stop : Int)
  /-- `BUILD` (R100). -/
  | build (action : Byte) (set : Bool) (address : Int) (extra : Extra)
  /-- `PARSE` (R110). -/
  | parse (buf : InFrame)
  /-- `DRAIN` (R131). -/
  | drain
  /-- `SETID` (R143). -/
  | setId (id : Int) (addr : Option Int)
  /-- `SETMODE` (R144). -/
  | setMode (passive : Bool) (addr : Option Int)
  /-- `SETSTATE` (R145). -/
  | setState (awake : Bool) (addr : Option Int)
  /-- `SETINTERVAL` (R146). -/
  | setInterval (minutes : Int) (addr : Option Int)
  /-- `QUERY` (R147). -/
  | query (addr : Option Int)
  /-- `RD.DEVID` (R150). -/
  | rdDevid
  /-- `RD.MODE` (R151). -/
  | rdMode
  /-- `RD.POWER` (R152). -/
  | rdPower
  /-- `RD.INTERVAL` (R153). -/
  | rdInterval
  /-- `RD.PM25` (R154). -/
  | rdPm25
  /-- `RD.PM10` (R155). -/
  | rdPm10
deriving DecidableEq, Repr

end Sys2Proof
end

