-- ==== Sys2Proof/Machine/Layout.lean ====
section
/-! DEFINITION. The parameters' values on this hardware (00_scope.md R6), the byte and bit primitives of
R11 and the byte order of the two frame formats (30_encoding.md R61, R62, R74). What depends on a
parameter takes `c : Params`. -/

namespace Sys2Proof

/-- The parameters of this hardware: the two OPEN ones unknown (assumption logs 1, 2), the others as the
spec decides them from general knowledge of the sensor's protocol (93_implementation_defined.md G3 to G6,
D7, D14, D26; PRESUMED, assumption log 18; unsafe). -/
def Config.params : Params where
  pmOrder := Config.pmOrder
  actFirmware := 0x07#8
  fwReset := ⟨Config.fwReset 0, Config.fwReset 1, Config.fwReset 2⟩
  extraAtValue := 4
  extraAtNewIdHi := 13
  extraAtNewIdLo := 14
  replyValueSel := 1

/-- Parameter values that make sense together: the offsets lie in the extra region (frame bytes 4..14,
R67), the two bytes of a new id at different ones, and the firmware action is none of the four that
mark another reply (R5, R73). -/
def Params.legal (c : Params) : Bool :=
  decide (4 ≤ c.extraAtValue ∧ c.extraAtValue ≤ 14)
  && decide (4 ≤ c.extraAtNewIdHi ∧ c.extraAtNewIdHi ≤ 14)
  && decide (4 ≤ c.extraAtNewIdLo ∧ c.extraAtNewIdLo ≤ 14)
  && c.extraAtNewIdHi != c.extraAtNewIdLo
  && c.actFirmware != Config.actMode && c.actFirmware != Config.actId
  && c.actFirmware != Config.actState && c.actFirmware != Config.actInterval

/-- `hi8(v)`, the high byte of the low 16 bits of `v` (R11). -/
def hi8 (v : Nat) : Byte := BitVec.ofNat 8 (v >>> 8)

/-- `lo8(v)`, the low byte of `v` (R11). -/
def lo8 (v : Nat) : Byte := BitVec.ofNat 8 v

/-- `join16(h, l) = (h << 8) | l` (R11, R74): `h` gives bits 15..8 and `l` bits 7..0. -/
def join16 (h l : Byte) : Word16 := h ++ l

/-- `sum8(b, lo, hi)`, both ends inclusive and 0 when `lo > hi` (R11): the running sum of
`CHECKSUM`'s pseudocode, reduced mod 256 at every step (R90). -/
def sum8 (b : List Byte) (lo hi : Nat) : Byte :=
  ((b.drop lo).take (hi + 1 - lo)).foldl (· + ·) 0

/-- The sum that an inbound frame with these bytes 2..7 must carry at byte 8 (R70). -/
def inboundSum (p0 p1 p2 p3 : Byte) (id : Word16) : Byte :=
  sum8 [p0, p1, p2, p3, hi8 id.toNat, lo8 id.toNat] 0 5

/-- `clamp(v, lo, hi)` (R11). -/
def clamp (v lo hi : Int) : Int := if v < lo then lo else if v > hi then hi else v

/-- `extra[0..10]` in index order. -/
def Extra.bytes (e : Extra) : List Byte :=
  [e.e0, e.e1, e.e2, e.e3, e.e4, e.e5, e.e6, e.e7, e.e8, e.e9, e.e10]

/-- The extra region "00×11" of a command without extra bytes (R67). -/
def Extra.zero : Extra := ⟨0, 0, 0, 0, 0, 0, 0, 0, 0, 0, 0⟩

/-- `extra[i] <- v`; no effect beyond index 10. -/
def Extra.put (e : Extra) (i : Nat) (v : Byte) : Extra :=
  match i with
  | 0 => { e with e0 := v }
  | 1 => { e with e1 := v }
  | 2 => { e with e2 := v }
  | 3 => { e with e3 := v }
  | 4 => { e with e4 := v }
  | 5 => { e with e5 := v }
  | 6 => { e with e6 := v }
  | 7 => { e with e7 := v }
  | 8 => { e with e8 := v }
  | 9 => { e with e9 := v }
  | 10 => { e with e10 := v }
  | _ => e

/-- `extra[i]`; 0 beyond index 10. -/
def Extra.get (e : Extra) (i : Nat) : Byte := (e.bytes[i]?).getD 0

/-- Eleven bytes as an extra region; no other length is one (R104). -/
def Extra.ofBytes : List Byte → Option Extra
  | [e0, e1, e2, e3, e4, e5, e6, e7, e8, e9, e10] =>
    some ⟨e0, e1, e2, e3, e4, e5, e6, e7, e8, e9, e10⟩
  | _ => none

/-- The index in `extra` of frame byte `k`: `extra[i]` is frame byte 4 + i (R67). -/
def extraIndex (k : Nat) : Nat := k - 4

/-- A command frame's bytes in wire order, index 0 first (R61). -/
def CmdFrame.bytes (f : CmdFrame) : List Byte :=
  [f.head, f.command, f.action, f.set] ++ f.extra.bytes ++ [f.addrHi, f.addrLo, f.checksum, f.tail]

/-- Nineteen bytes as a command frame. -/
def CmdFrame.ofBytes : List Byte → Option CmdFrame
  | [b0, b1, b2, b3, b4, b5, b6, b7, b8, b9, b10, b11, b12, b13, b14, b15, b16, b17, b18] =>
    some ⟨b0, b1, b2, b3, ⟨b4, b5, b6, b7, b8, b9, b10, b11, b12, b13, b14⟩, b15, b16, b17, b18⟩
  | _ => none

/-- An inbound frame's bytes in wire order, index 0 first (R62). -/
def InFrame.bytes (f : InFrame) : List Byte :=
  [f.head, f.commandId, f.p0, f.p1, f.p2, f.p3, f.idHi, f.idLo, f.checksum, f.tail]

/-- The first ten bytes of a sequence as a frame, and the rest; none when fewer than ten. -/
def InFrame.takeFrom : List Byte → Option (InFrame × List Byte)
  | b0 :: b1 :: b2 :: b3 :: b4 :: b5 :: b6 :: b7 :: b8 :: b9 :: rest =>
    some (⟨b0, b1, b2, b3, b4, b5, b6, b7, b8, b9⟩, rest)
  | _ => none

/-- Exactly ten bytes as an inbound frame. -/
def InFrame.ofBytes (l : List Byte) : Option InFrame :=
  match InFrame.takeFrom l with
  | some (f, []) => some f
  | _ => none

/-- A command frame with its checksum byte set to the sum of bytes 2..16 (R69). -/
def CmdFrame.sealed (f : CmdFrame) : CmdFrame := { f with checksum := sum8 f.bytes 2 16 }

/-- An inbound frame with its checksum byte set to the sum of bytes 2..7 (R70). -/
def InFrame.sealed (f : InFrame) : InFrame := { f with checksum := sum8 f.bytes 2 7 }

/-- Format `CMD19` filled in (R61): fixed head, command and tail, the set flag as 0x01 or 0x00 (R66),
the address high byte first (R43), the checksum last (R69). -/
def cmdLayout (action : Byte) (set : Bool) (extra : Extra) (addrHi addrLo : Byte) : CmdFrame :=
  CmdFrame.sealed
    { head := Config.headByte, command := Config.cmdId, action := action
      set := if set then 0x01#8 else 0x00#8, extra := extra
      addrHi := addrHi, addrLo := addrLo, checksum := 0, tail := Config.tailByte }

/-- The extra region with one value byte at `EXTRA_AT_VALUE` (R144 to R146). -/
def valueExtra (c : Params) (v : Byte) : Extra := Extra.zero.put (extraIndex c.extraAtValue) v

/-- The extra region with a new device id at `EXTRA_AT_NEWID`, high byte first (R143). -/
def newIdExtra (c : Params) (hi lo : Byte) : Extra :=
  (Extra.zero.put (extraIndex c.extraAtNewIdHi) hi).put (extraIndex c.extraAtNewIdLo) lo

/-- The value byte of a boolean operand: true is 0x01 and false 0x00 (R144, R145, D8). -/
def boolByte (b : Bool) : Byte := if b then 0x01#8 else 0x00#8

/-- Whether a frame with this action, set flag and extra region is one of the five command-form rows
of the table, so that `CMD.ANY` does not match it (R80). -/
def namedCmd (c : Params) (action : Byte) (set : Bool) (extra : Extra) : Bool :=
  let v := extra.get (extraIndex c.extraAtValue)
  let one := decide (extra = valueExtra c v)
  (action == Config.actMode && set && one && decide (v ≤ 1#8))
  || (action == Config.actQuery && !set && decide (extra = Extra.zero))
  || (action == Config.actId && set && decide (extra =
      newIdExtra c (extra.get (extraIndex c.extraAtNewIdHi))
        (extra.get (extraIndex c.extraAtNewIdLo))))
  || (action == Config.actState && set && one && decide (v ≤ 1#8))
  || (action == Config.actInterval && set && one && decide (v ≤ 0x1E#8))

/-- Whether a Reply with this action has a row of its own, so that `IN.REPLY.OTHER` does not match
it (R73, R80). -/
def namedReply (c : Params) (action : Byte) : Bool :=
  action == Config.actMode || action == Config.actId || action == Config.actState
  || action == c.actFirmware || action == Config.actInterval

end Sys2Proof
end

