-- ==== Sys2Proof/Machine/Operands.lean ====
section
/-! DEFINITION. The operand forms of port OP (30_encoding.md R78): the default address, the stated
domains of the operands, truncation and clamping. -/

namespace Sys2Proof.Machine

/-- The `addr` operand of a command form: 0xFFFF when it is not given (R140). -/
def addrOperand (addr : Option Int) : Int := addr.getD 0xFFFF

/-- The `minutes` operand after the clamp to [0,30], as the byte that is encoded (R146). -/
def minutesByte (minutes : Int) : Byte :=
  BitVec.ofInt 8 (clamp minutes Config.intervalMin Config.intervalMax)

/-- The domain of `CHECKSUM` for a buffer of `len` bytes: an empty range, or both indices inside the
buffer (R90). -/
def checksumDomain (len : Nat) (start stop : Int) : Bool :=
  decide (start > stop) || (decide (0 ≤ start) && decide (stop < len))

/-- The domain of `VALIDATE`: `0 <= start <= stop` and `stop + 1 < len` (R92). -/
def validateDomain (len : Nat) (start stop : Int) : Bool :=
  decide (0 ≤ start) && decide (start ≤ stop) && decide (stop + 1 < len)

/-- Addresses and ids are unsigned: a negative one has no meaning (R103, U7). -/
def unsignedDomain (v : Int) : Bool := decide (0 ≤ v)

/-- The value of `CHECKSUM` on a range in its domain: 0 for an empty range, whatever its ends
(R90). -/
def checksumValue (buf : List Byte) (start stop : Int) : Byte :=
  if start > stop then 0 else sum8 buf start.toNat stop.toNat

/-- The value of `VALIDATE` on a range in its domain: the byte at `stop + 1` against the sum
(R92). -/
def validateValue (buf : List Byte) (start stop : Int) : Bool :=
  buf[stop.toNat + 1]? == some (checksumValue buf start stop)

end Sys2Proof.Machine
end

