-- ==== Sys2Proof/WellFormed.lean ====
section
/-! DEFINITION. When an instruction is well formed: a frame row's constraint holds of its operands
(opcode_table.json, 30_encoding.md R80), and a request's operands lie in the domain its rule states
(00_scope.md R12). The parameters of R6 are an argument. -/

namespace Sys2Proof

/-- The row constraints and operand domains, one line for each constructor that has any. -/
def Instr.wf (c : Params) (i : Instr) : Bool :=
  match i with
  | .cmdMode _ _ => true
  | .cmdQuery _ => true
  | .cmdId _ _ => true
  | .cmdState _ _ => true
  | .cmdInterval minutes _ => decide (minutes ≤ 0x1E#8)
  | .cmdAny action set extra _ => !namedCmd c action set extra
  | .inBadsum _ p0 p1 p2 p3 id k _ => k != inboundSum p0 p1 p2 p3 id
  | .inData _ _ _ _ _ _ => true
  | .inReplyMode _ _ _ _ _ => true
  | .inReplyId _ _ _ _ _ => true
  | .inReplyState _ _ _ _ _ => true
  | .inReplyFirmware _ _ _ _ _ => true
  | .inReplyInterval _ _ _ _ _ => true
  | .inReplyOther action _ _ _ _ _ => !namedReply c action
  | .inUnknown commandId _ _ _ _ _ _ => commandId != Config.dataId && commandId != Config.replyId
  | .checksum buf start stop => Machine.checksumDomain buf.length start stop
  | .validate buf start stop => Machine.validateDomain buf.length start stop
  | .build _ _ address _ => Machine.unsignedDomain address
  | .parse _ => true
  | .drain => true
  | .setId id addr => Machine.unsignedDomain id && Machine.unsignedDomain (Machine.addrOperand addr)
  | .setMode _ addr => Machine.unsignedDomain (Machine.addrOperand addr)
  | .setState _ addr => Machine.unsignedDomain (Machine.addrOperand addr)
  | .setInterval _ addr => Machine.unsignedDomain (Machine.addrOperand addr)
  | .query addr => Machine.unsignedDomain (Machine.addrOperand addr)
  | .rdDevid => true
  | .rdMode => true
  | .rdPower => true
  | .rdInterval => true
  | .rdPm25 => true
  | .rdPm10 => true

end Sys2Proof
end

