-- ==== Sys2Proof/Decode.lean ====
section
/-! DEFINITION. The decoder, total on any bytes and any request and rejecting by name, and after it
the encoder, both written from 30_encoding.md R61 to R80 and spec/opcode_table.json. The parameters of
00_scope.md R6 are an argument `c` of both. -/

namespace Sys2Proof

/-- Why the decoder refuses. -/
inductive Reject where
  /-- Neither nineteen nor ten bytes (R60). -/
  | badLength
  /-- Byte 0 is not 0xAA. -/
  | badHead
  /-- Byte 1 of a nineteen-byte frame is not 0xB4. -/
  | badCommand
  /-- Byte 3 of a nineteen-byte frame is neither 0x00 nor 0x01. -/
  | badSetFlag
  /-- Byte 17 of a nineteen-byte frame is not the sum of bytes 2..16. -/
  | badChecksum
  /-- Byte 18 of a nineteen-byte frame is not 0xAB. -/
  | badTail
  /-- The operands of a request do not fit the operation's syntax (R78). -/
  | badOperands (name : OpName)
deriving DecidableEq, Repr

/-- An instruction in encoded form, by the format of its row: `CMD19`, `IN10`, or an operation
selected by name. -/
inductive Code where
  | cmd (f : CmdFrame)
  | inb (f : InFrame)
  | op (r : OpRequest)
deriving DecidableEq, Repr

/-! The decoder. -/

/-- The row of a command frame whose fixed bytes are right: the command-form rows in the table's
order, then `CMD.ANY` (R80). -/
def classifyCmd (c : Params) (action : Byte) (set : Bool) (extra : Extra) (addr : Word16) :
    Instr :=
  let v := extra.get (extraIndex c.extraAtValue)
  let hi := extra.get (extraIndex c.extraAtNewIdHi)
  let lo := extra.get (extraIndex c.extraAtNewIdLo)
  if action = Config.actMode ∧ set = true ∧ extra = valueExtra c v ∧ v ≤ 1#8 then
    .cmdMode (v == 1#8) addr
  else if action = Config.actQuery ∧ set = false ∧ extra = Extra.zero then .cmdQuery addr
  else if action = Config.actId ∧ set = true ∧ extra = newIdExtra c hi lo then
    .cmdId (join16 hi lo) addr
  else if action = Config.actState ∧ set = true ∧ extra = valueExtra c v ∧ v ≤ 1#8 then
    .cmdState (v == 1#8) addr
  else if action = Config.actInterval ∧ set = true ∧ extra = valueExtra c v ∧ v ≤ 0x1E#8 then
    .cmdInterval v addr
  else .cmdAny action set extra addr

/-- A command frame's row, or why it is none (R61, R80). -/
def decodeCmd (c : Params) (f : CmdFrame) : Except Reject Instr :=
  if f.head ≠ Config.headByte then .error .badHead
  else if f.command ≠ Config.cmdId then .error .badCommand
  else if f.set ≠ 0x00#8 ∧ f.set ≠ 0x01#8 then .error .badSetFlag
  else if f.checksum ≠ sum8 f.bytes 2 16 then .error .badChecksum
  else if f.tail ≠ Config.tailByte then .error .badTail
  else .ok (classifyCmd c f.action (f.set == 0x01#8) f.extra (join16 f.addrHi f.addrLo))

/-- The row of ten bytes, the rows tried in the table's order: the checksum before the command-id
(R111), the specific Replies before the general one, `IN.UNKNOWN` last (R80). Bytes 0 and 9 are not
looked at (R117). -/
def classifyIn (c : Params) (f : InFrame) : Instr :=
  let id := join16 f.idHi f.idLo
  if f.checksum ≠ sum8 f.bytes 2 7 then
    .inBadsum f.commandId f.p0 f.p1 f.p2 f.p3 id f.checksum f.tail
  else if f.commandId = Config.dataId then .inData f.p0 f.p1 f.p2 f.p3 id f.tail
  else if f.commandId = Config.replyId then
    if f.p0 = Config.actMode then .inReplyMode f.p1 f.p2 f.p3 id f.tail
    else if f.p0 = Config.actId then .inReplyId f.p1 f.p2 f.p3 id f.tail
    else if f.p0 = Config.actState then .inReplyState f.p1 f.p2 f.p3 id f.tail
    else if f.p0 = c.actFirmware then .inReplyFirmware f.p1 f.p2 f.p3 id f.tail
    else if f.p0 = Config.actInterval then .inReplyInterval f.p1 f.p2 f.p3 id f.tail
    else .inReplyOther f.p0 f.p1 f.p2 f.p3 id f.tail
  else .inUnknown f.commandId f.p0 f.p1 f.p2 f.p3 id f.tail

/-- An inbound frame's row: every ten bytes that begin with 0xAA have one (R80). -/
def decodeIn (c : Params) (f : InFrame) : Except Reject Instr :=
  if f.head ≠ Config.headByte then .error .badHead else .ok (classifyIn c f)

/-- The optional last operand `addr` of a command form. -/
def decodeAddr (name : OpName) : List Operand → Except Reject (Option Int)
  | [] => .ok none
  | [.int a] => .ok (some a)
  | _ => .error (.badOperands name)

/-- The operation a request asks for, by its name and the operands of R78. -/
def decodeRequest (r : OpRequest) : Except Reject Instr :=
  match r.name, r.operands with
  | .checksum, [.bytes b, .int lo, .int hi] => .ok (.checksum b lo hi)
  | .validate, [.bytes b, .int lo, .int hi] => .ok (.validate b lo hi)
  | .build, [.byte a, .bool s, .int addr, .bytes x] =>
    match Extra.ofBytes x with
    | some e => .ok (.build a s addr e)
    | none => .error (.badOperands .build)
  | .parse, [.bytes b] =>
    match InFrame.ofBytes b with
    | some f => .ok (.parse f)
    | none => .error (.badOperands .parse)
  | .drain, [] => .ok .drain
  | .setId, .int id :: rest => (decodeAddr .setId rest).map (.setId id)
  | .setMode, .bool b :: rest => (decodeAddr .setMode rest).map (.setMode b)
  | .setState, .bool b :: rest => (decodeAddr .setState rest).map (.setState b)
  | .setInterval, .int m :: rest => (decodeAddr .setInterval rest).map (.setInterval m)
  | .query, rest => (decodeAddr .query rest).map .query
  | .rdDevid, [] => .ok .rdDevid
  | .rdMode, [] => .ok .rdMode
  | .rdPower, [] => .ok .rdPower
  | .rdInterval, [] => .ok .rdInterval
  | .rdPm25, [] => .ok .rdPm25
  | .rdPm10, [] => .ok .rdPm10
  | name, _ => .error (.badOperands name)

/-- The decoder on an encoded form. -/
def decode (c : Params) : Code → Except Reject Instr
  | .cmd f => decodeCmd c f
  | .inb f => decodeIn c f
  | .op r => decodeRequest r

/-- The decoder on bytes: the length selects the format (R60, R75). -/
def decodeBytes (c : Params) (l : List Byte) : Except Reject Instr :=
  match CmdFrame.ofBytes l with
  | some f => decodeCmd c f
  | none =>
    match InFrame.ofBytes l with
    | some f => decodeIn c f
    | none => .error .badLength

/-- The `n` bytes of `w`, the least significant first: byte 0 of a frame is the first on the wire and
holds bits 7..0. -/
def bytesOfNat : Nat → Nat → List Byte
  | 0, _ => []
  | n + 1, w => BitVec.ofNat 8 w :: bytesOfNat n (w / 256)

/-- The decoder, at this hardware's parameters, on a table word
(host's numbering: bit 0 is the least significant bit of byte 0).
Operations have no bits (R78), so no word stands for one. -/
def decodeTableWord (nbits w : Nat) : Option Instr :=
  match decodeBytes Config.params (bytesOfNat (nbits / 8) w) with
  | .ok i => some i
  | .error _ => none

/-! The encoder. -/

/-- A command frame to the 16-bit address `addr`, high byte first. -/
def cmdTo (action : Byte) (set : Bool) (extra : Extra) (addr : Word16) : CmdFrame :=
  cmdLayout action set extra (hi8 addr.toNat) (lo8 addr.toNat)

/-- An inbound frame whose byte 8 is the sum of bytes 2..7. -/
def inboundFrame (commandId p0 p1 p2 p3 : Byte) (id : Word16) (tail : Byte) : InFrame :=
  InFrame.sealed
    { head := Config.headByte, commandId := commandId, p0 := p0, p1 := p1, p2 := p2, p3 := p3
      idHi := hi8 id.toNat, idLo := lo8 id.toNat, checksum := 0, tail := tail }

/-- The optional last operand of a command form. -/
def addrOperands : Option Int → List Operand
  | none => []
  | some a => [.int a]

/-- The encoded form of an instruction, by its row. -/
def encode (c : Params) : Instr → Code
  | .cmdMode passive addr => .cmd (cmdTo Config.actMode true (valueExtra c (boolByte passive)) addr)
  | .cmdQuery addr => .cmd (cmdTo Config.actQuery false Extra.zero addr)
  | .cmdId newId addr =>
    .cmd (cmdTo Config.actId true (newIdExtra c (hi8 newId.toNat) (lo8 newId.toNat)) addr)
  | .cmdState awake addr => .cmd (cmdTo Config.actState true (valueExtra c (boolByte awake)) addr)
  | .cmdInterval minutes addr => .cmd (cmdTo Config.actInterval true (valueExtra c minutes) addr)
  | .cmdAny action set extra addr => .cmd (cmdTo action set extra addr)
  | .inBadsum commandId p0 p1 p2 p3 id k tail =>
    .inb { inboundFrame commandId p0 p1 p2 p3 id tail with checksum := k }
  | .inData w2 w3 w4 w5 id tail => .inb (inboundFrame Config.dataId w2 w3 w4 w5 id tail)
  | .inReplyMode v0 v1 v2 id tail =>
    .inb (inboundFrame Config.replyId Config.actMode v0 v1 v2 id tail)
  | .inReplyId v0 v1 v2 id tail => .inb (inboundFrame Config.replyId Config.actId v0 v1 v2 id tail)
  | .inReplyState v0 v1 v2 id tail =>
    .inb (inboundFrame Config.replyId Config.actState v0 v1 v2 id tail)
  | .inReplyFirmware v0 v1 v2 id tail =>
    .inb (inboundFrame Config.replyId c.actFirmware v0 v1 v2 id tail)
  | .inReplyInterval v0 v1 v2 id tail =>
    .inb (inboundFrame Config.replyId Config.actInterval v0 v1 v2 id tail)
  | .inReplyOther action v0 v1 v2 id tail =>
    .inb (inboundFrame Config.replyId action v0 v1 v2 id tail)
  | .inUnknown commandId p0 p1 p2 p3 id tail => .inb (inboundFrame commandId p0 p1 p2 p3 id tail)
  | .checksum buf start stop => .op ⟨.checksum, [.bytes buf, .int start, .int stop]⟩
  | .validate buf start stop => .op ⟨.validate, [.bytes buf, .int start, .int stop]⟩
  | .build action set address extra =>
    .op ⟨.build, [.byte action, .bool set, .int address, .bytes extra.bytes]⟩
  | .parse buf => .op ⟨.parse, [.bytes buf.bytes]⟩
  | .drain => .op ⟨.drain, []⟩
  | .setId id addr => .op ⟨.setId, .int id :: addrOperands addr⟩
  | .setMode passive addr => .op ⟨.setMode, .bool passive :: addrOperands addr⟩
  | .setState awake addr => .op ⟨.setState, .bool awake :: addrOperands addr⟩
  | .setInterval minutes addr => .op ⟨.setInterval, .int minutes :: addrOperands addr⟩
  | .query addr => .op ⟨.query, addrOperands addr⟩
  | .rdDevid => .op ⟨.rdDevid, []⟩
  | .rdMode => .op ⟨.rdMode, []⟩
  | .rdPower => .op ⟨.rdPower, []⟩
  | .rdInterval => .op ⟨.rdInterval, []⟩
  | .rdPm25 => .op ⟨.rdPm25, []⟩
  | .rdPm10 => .op ⟨.rdPm10, []⟩

/-- The bytes of an encoded form; an operation is selected by name and has none (R78). -/
def Code.bytes : Code → List Byte
  | .cmd f => f.bytes
  | .inb f => f.bytes
  | .op _ => []

/-- The request of an encoded form, if it is an operation's. -/
def Code.request : Code → Option OpRequest
  | .op r => some r
  | _ => none

/-! The opcode table's frame rows as data, to hold the decoder against. -/

/-- The constraint of a row, which a mask cannot say (R80). -/
inductive RowConstraint where
  | sumHolds
  | sumHoldsAndAtMost (index : Nat) (bound : Byte)
  | sumFails
deriving DecidableEq, Repr

/-- One frame row: `match`, `mask` and constraint as spec/opcode_table.json has them. -/
structure FrameRow where
  pattern : List Byte
  mask : List Byte
  constraint : RowConstraint
deriving DecidableEq, Repr

/-- Whether a row's constraint holds of `bytes`, its sum over bytes 2..`stop` stored at `stop` + 1. -/
def RowConstraint.holds (c : RowConstraint) (bytes : List Byte) (stop : Nat) : Bool :=
  match c with
  | .sumHolds => bytes[stop + 1]? == some (sum8 bytes 2 stop)
  | .sumHoldsAndAtMost k bound =>
    bytes[stop + 1]? == some (sum8 bytes 2 stop) && decide ((bytes[k]?).getD 0 ≤ bound)
  | .sumFails => bytes[stop + 1]? != some (sum8 bytes 2 stop)

/-- A frame matches a row when `(f & mask) = match` bytewise and the constraint holds (R80). -/
def FrameRow.admits (row : FrameRow) (bytes : List Byte) (stop : Nat) : Bool :=
  (bytes.zipWith (· &&& ·) row.mask == row.pattern) && row.constraint.holds bytes stop

/-- The six `CMD19` rows in the table's order. -/
def cmdRows : List FrameRow :=
  [⟨[0xAA, 0xB4, 0x02, 0x01, 0, 0, 0, 0, 0, 0, 0, 0, 0, 0, 0, 0, 0, 0, 0xAB],
    [0xFF, 0xFF, 0xFF, 0xFF, 0xFE, 0xFF, 0xFF, 0xFF, 0xFF, 0xFF, 0xFF, 0xFF, 0xFF, 0xFF, 0xFF,
     0, 0, 0, 0xFF], .sumHolds⟩,
   ⟨[0xAA, 0xB4, 0x04, 0x00, 0, 0, 0, 0, 0, 0, 0, 0, 0, 0, 0, 0, 0, 0, 0xAB],
    [0xFF, 0xFF, 0xFF, 0xFF, 0xFF, 0xFF, 0xFF, 0xFF, 0xFF, 0xFF, 0xFF, 0xFF, 0xFF, 0xFF, 0xFF,
     0, 0, 0, 0xFF], .sumHolds⟩,
   ⟨[0xAA, 0xB4, 0x05, 0x01, 0, 0, 0, 0, 0, 0, 0, 0, 0, 0, 0, 0, 0, 0, 0xAB],
    [0xFF, 0xFF, 0xFF, 0xFF, 0xFF, 0xFF, 0xFF, 0xFF, 0xFF, 0xFF, 0xFF, 0xFF, 0xFF, 0, 0,
     0, 0, 0, 0xFF], .sumHolds⟩,
   ⟨[0xAA, 0xB4, 0x06, 0x01, 0, 0, 0, 0, 0, 0, 0, 0, 0, 0, 0, 0, 0, 0, 0xAB],
    [0xFF, 0xFF, 0xFF, 0xFF, 0xFE, 0xFF, 0xFF, 0xFF, 0xFF, 0xFF, 0xFF, 0xFF, 0xFF, 0xFF, 0xFF,
     0, 0, 0, 0xFF], .sumHolds⟩,
   ⟨[0xAA, 0xB4, 0x08, 0x01, 0, 0, 0, 0, 0, 0, 0, 0, 0, 0, 0, 0, 0, 0, 0xAB],
    [0xFF, 0xFF, 0xFF, 0xFF, 0xE0, 0xFF, 0xFF, 0xFF, 0xFF, 0xFF, 0xFF, 0xFF, 0xFF, 0xFF, 0xFF,
     0, 0, 0, 0xFF], .sumHoldsAndAtMost 4 0x1E⟩,
   ⟨[0xAA, 0xB4, 0, 0, 0, 0, 0, 0, 0, 0, 0, 0, 0, 0, 0, 0, 0, 0, 0xAB],
    [0xFF, 0xFF, 0, 0xFE, 0, 0, 0, 0, 0, 0, 0, 0, 0, 0, 0, 0, 0, 0, 0xFF], .sumHolds⟩]

/-- The nine `IN10` rows in the table's order. -/
def inRows : List FrameRow :=
  [⟨[0xAA, 0, 0, 0, 0, 0, 0, 0, 0, 0], [0xFF, 0, 0, 0, 0, 0, 0, 0, 0, 0], .sumFails⟩,
   ⟨[0xAA, 0xC0, 0, 0, 0, 0, 0, 0, 0, 0], [0xFF, 0xFF, 0, 0, 0, 0, 0, 0, 0, 0], .sumHolds⟩,
   ⟨[0xAA, 0xC5, 0x02, 0, 0, 0, 0, 0, 0, 0], [0xFF, 0xFF, 0xFF, 0, 0, 0, 0, 0, 0, 0], .sumHolds⟩,
   ⟨[0xAA, 0xC5, 0x05, 0, 0, 0, 0, 0, 0, 0], [0xFF, 0xFF, 0xFF, 0, 0, 0, 0, 0, 0, 0], .sumHolds⟩,
   ⟨[0xAA, 0xC5, 0x06, 0, 0, 0, 0, 0, 0, 0], [0xFF, 0xFF, 0xFF, 0, 0, 0, 0, 0, 0, 0], .sumHolds⟩,
   ⟨[0xAA, 0xC5, 0x07, 0, 0, 0, 0, 0, 0, 0], [0xFF, 0xFF, 0xFF, 0, 0, 0, 0, 0, 0, 0], .sumHolds⟩,
   ⟨[0xAA, 0xC5, 0x08, 0, 0, 0, 0, 0, 0, 0], [0xFF, 0xFF, 0xFF, 0, 0, 0, 0, 0, 0, 0], .sumHolds⟩,
   ⟨[0xAA, 0xC5, 0, 0, 0, 0, 0, 0, 0, 0], [0xFF, 0xFF, 0, 0, 0, 0, 0, 0, 0, 0], .sumHolds⟩,
   ⟨[0xAA, 0, 0, 0, 0, 0, 0, 0, 0, 0], [0xFF, 0, 0, 0, 0, 0, 0, 0, 0, 0], .sumHolds⟩]

/-- The position of an instruction's row in spec/opcode_table.json, counted from 0. -/
def Instr.row : Instr → Nat
  | .cmdMode _ _ => 0
  | .cmdQuery _ => 1
  | .cmdId _ _ => 2
  | .cmdState _ _ => 3
  | .cmdInterval _ _ => 4
  | .cmdAny _ _ _ _ => 5
  | .inBadsum _ _ _ _ _ _ _ _ => 6
  | .inData _ _ _ _ _ _ => 7
  | .inReplyMode _ _ _ _ _ => 8
  | .inReplyId _ _ _ _ _ => 9
  | .inReplyState _ _ _ _ _ => 10
  | .inReplyFirmware _ _ _ _ _ => 11
  | .inReplyInterval _ _ _ _ _ => 12
  | .inReplyOther _ _ _ _ _ _ => 13
  | .inUnknown _ _ _ _ _ _ _ => 14
  | .checksum _ _ _ => 15
  | .validate _ _ _ => 16
  | .build _ _ _ _ => 17
  | .parse _ => 18
  | .drain => 19
  | .setId _ _ => 20
  | .setMode _ _ => 21
  | .setState _ _ => 22
  | .setInterval _ _ => 23
  | .query _ => 24
  | .rdDevid => 25
  | .rdMode => 26
  | .rdPower => 27
  | .rdInterval => 28
  | .rdPm25 => 29
  | .rdPm10 => 30

end Sys2Proof
end

