-- ==== Sys2Proof/Machine/State.lean ====
section
/-! DEFINITION. The state of the machine as plain data: everything 10_state.md R20, R33 and R34 give,
the traffic of the ports (00_scope.md R8, R9), the schedule of the agents' turns (R7), the parameters the
machine is built with (R6), and the model's own control fields; its value after reset (R36); the reasons a step can stop. -/

namespace Sys2Proof.Machine

/-- The scanner's control state (R23). -/
inductive Phase where
  | idle | test | scan | read | valid | apply | discard
deriving DecidableEq, Repr

/-- The model's own: which of R140's stages the command form in progress has reached (log 10). -/
inductive CmdStage where
  /-- Stage 1 is done: `TB` is built and not yet handed to the transport. -/
  | send
  /-- Stage 2 is done: the form is in its delay (stage 3) or in its DRAIN (stage 4). -/
  | wait
deriving DecidableEq, Repr

/-- A result returned on port OP (R9, R78). -/
inductive Result where
  | u8 (v : Byte)
  | bit (b : Bool)
  | frame (f : CmdFrame)
  | parsed (r : ParseResult)
  | u16 (v : Word16)
  /-- A reading: the pair (raw, divisor 10) is the value (R115). -/
  | tenths (raw : Word16)
deriving DecidableEq, Repr

/-- One completion of port OP: which operation completed and its result (R8). -/
structure Completion where
  op : OpName
  result : Result
deriving DecidableEq, Repr

/-- One turn of an agent (R7). -/
inductive Turn where
  /-- BLOCK takes one micro-step. -/
  | block
  /-- LINK_RX appends one byte, of any value, to RXQ. -/
  | rx (b : Byte)
  /-- LINK_TX removes one byte from TXQ (log 28). -/
  | tx
  /-- HOST makes a request at port OP. -/
  | host (r : OpRequest)
  /-- The RESET event. -/
  | reset
deriving DecidableEq, Repr, Inhabited

/-- The turns that follow a finite list of turns: how the schedule goes on for ever (R7; log 5). -/
inductive Later where
  /-- Every turn is BLOCK's: no other agent takes a step any more. -/
  | block
  /-- The turns `first :: rest` over and over: an environment that never ends (43_scanner.md R133). -/
  | cycle (first : Turn) (rest : List Turn)
  /-- Nothing is known of them: the turns `Config.freeTurn k`, `Config.freeTurn (k + 1)`, … -/
  | free (k : Nat)
deriving DecidableEq, Repr

end Sys2Proof.Machine

/-- The turn numbered `k` of a schedule of which nothing is known (R7, R37): a free value; assumption
log 5. -/
opaque Sys2Proof.Config.freeTurn (k : Nat) : Sys2Proof.Machine.Turn

namespace Sys2Proof.Machine

/-- Why a step faults: never, since this hardware raises nothing (60_exceptions.md R160). The type has
no constructor, so that no step can fault (log 23; safe). -/
inductive Fault where
deriving DecidableEq, Repr

/-- Why a step is refused: the spec gives the request no meaning (R12). -/
inductive Refusal where
  /-- Raised only by an arm of `exec` whose instruction has no meaning yet; no arm is left (safe). -/
  | notModelled (mnemonic : String)
  /-- Raised by CHECKSUM and VALIDATE when an index lies outside the buffer (R90, R92; safe). -/
  | indexOutsideBuffer
  /-- Raised by BUILD and the command forms on a negative address or id (R103, D20; safe). -/
  | negativeOperand
  /-- Raised when port OP serves a request whose operands do not fit its operation (R78, R12; safe). -/
  | malformedRequest
  /-- Raised by the READ micro-step when fewer than ten bytes are available, a call of the transport
  outside its precondition (R11, R53, U17), which no state meeting the invariant reaches (safe). -/
  | readBelowTen
deriving DecidableEq, Repr

/-- The machine's state. -/
structure State where
  /-- The parameters this machine is built with (R6). No step changes them: they are the argument that
  every step takes along (log 29). -/
  params : Params
  /-- `FB[0..9]` (R21). -/
  fb : InFrame
  /-- `TB[0..18]` (R22). -/
  tb : CmdFrame
  /-- `phase` (R23). -/
  phase : Phase
  /-- `cmd_busy` (R23). -/
  cmdBusy : Bool
  /-- `applied` (R24). -/
  applied : Bool
  /-- `DEVID` (R25). -/
  devid : Word16
  /-- `PM25`, raw tenths (R26). -/
  pm25 : Word16
  /-- `PM10`, raw tenths (R26). -/
  pm10 : Word16
  /-- `MODE`, 0 active, 1 passive (R27). -/
  mode : BitVec 1
  /-- `POWER`, 1 awake, 0 asleep (R28). -/
  power : BitVec 1
  /-- `INTERVAL`, minutes (R29). -/
  interval : Byte
  /-- `FW[0..2]` (R30). -/
  fw : Firmware
  /-- `RXQ`, oldest unread byte first (R33). -/
  rxq : List Byte
  /-- `TXQ`, next byte to send first (R34). -/
  txq : List Byte
  /-- The model's own: the stage of the command form in progress (log 10). -/
  stage : CmdStage
  /-- The model's own: the multi-step operation last accepted (log 10). -/
  latched : OpName
  /-- Requests held at port OP (R8), in the order they were made. -/
  held : List OpRequest
  /-- Completions port OP has given, oldest first (R9; log 11). -/
  completions : List Completion
  /-- The model's own: the bytes LINK_TX has removed from TXQ, oldest first, so that the sequence of
  bytes appended to TXQ, which R9's observer sees, is not lost (log 27). -/
  sent : List Byte
  /-- The model's own: the turns still to come, next first (log 5). -/
  agenda : List Turn
  /-- The model's own: how the turns go on when `agenda` is empty (log 5). -/
  later : Later
  /-- The model's own: how many free values have been drawn (log 6). -/
  draws : Nat
deriving DecidableEq, Repr

/-- The unspecified content of `FB` after the reset numbered `draw`: free bytes (R21, log 4). -/
def drawnFb (draw : Nat) : InFrame :=
  let b := Config.resetFb draw
  ⟨b 0, b 1, b 2, b 3, b 4, b 5, b 6, b 7, b 8, b 9⟩

/-- The unspecified content of `TB` after the reset numbered `draw`: free bytes (R22, log 4). -/
def drawnTb (draw : Nat) : CmdFrame :=
  let b := Config.resetTb draw
  ⟨b 0, b 1, b 2, b 3, ⟨b 4, b 5, b 6, b 7, b 8, b 9, b 10, b 11, b 12, b 13, b 14⟩,
    b 15, b 16, b 17, b 18⟩

/-- The machine with the parameters `c` right after reset (R36, R180): the values R36 states, free draws
where it says unspecified; the queues, the ports and the model's own fields empty; nothing known of the
turns to come (logs 5, 6, 10, 11, 14, 27). -/
def State.resetAt (c : Params) : State where
  params := c
  fb := drawnFb 0
  tb := drawnTb 0
  phase := .idle
  cmdBusy := false
  applied := false
  devid := Config.broadcast
  pm25 := Config.resetPm25 0
  pm10 := Config.resetPm10 0
  mode := 0#1
  power := 1#1
  interval := 0#8
  fw := c.fwReset
  rxq := []
  txq := []
  stage := .send
  latched := .drain
  held := []
  completions := []
  sent := []
  agenda := []
  later := .free 0
  draws := 1

/-- This hardware right after reset. -/
def State.reset : State := State.resetAt Config.params

end Sys2Proof.Machine
end

