-- ==== Sys2Proof/Machine/Flags.lean ====
section
/-! DEFINITION. The one flag, `applied` (10_state.md R24): cleared when a DRAIN starts, set by every
APPLY, changed by nothing else but RESET. -/

namespace Sys2Proof.Machine

/-- `applied <- 0` (R120). -/
def clearApplied (s : State) : State := { s with applied := false }

/-- `applied <- 1` (R126). -/
def setApplied (s : State) : State := { s with applied := true }

end Sys2Proof.Machine
end

