-- ==== Sys2Proof/Machine/Ops.lean ====
section
/-! DEFINITION. The operations that several instructions and micro-steps share: the transport
(20_memory.md R47), BUILD and PARSE (R100, R110), what an inbound frame does to the registers (R126 to
R129), what replaces an exception (60_exceptions.md R165), port OP (00_scope.md R8), the turns of the
environment (R7) and RESET (R180). -/

namespace Sys2Proof.Machine

/-! The transport port TP (R47, R53). -/

/-- `TP.avail()`: how many bytes are available to read. -/
def tpAvail (s : State) : Nat := s.rxq.length

/-- `TP.peek()`: the next byte; none on an empty stream, where the block never asks (R53). -/
def tpPeek (s : State) : Option Byte := s.rxq.head?

/-- `TP.discard()`: consumes and drops one byte. -/
def tpDiscard (s : State) : State := { s with rxq := s.rxq.tail }

/-- `FB <- TP.read(10)`: ten bytes leave RXQ in one step (R48); none when fewer are available, where
the block never asks (R53). -/
def tpReadToFb (s : State) : Option State :=
  match InFrame.takeFrom s.rxq with
  | some (f, rest) => some { s with fb := f, rxq := rest }
  | none => none

/-- `TP.write(buf)`: appends nineteen bytes to TXQ in index order, in one step (R48, R141). -/
def tpWrite (f : CmdFrame) (s : State) : State := { s with txq := s.txq ++ f.bytes }

/-! The codec. -/

/-- BUILD (R100): only the low 16 bits of the address are used (R103). -/
def build (action : Byte) (set : Bool) (address : Nat) (extra : Extra) : CmdFrame :=
  cmdLayout action set extra (hi8 address) (lo8 address)

/-- A reading from its two wire bytes, the first on the wire first (R44). -/
def reading (order : PmOrder) (first second : Byte) : Word16 :=
  match order with
  | .hiFirst => join16 first second
  | .loFirst => join16 second first

/-- PARSE (R110): the checksum first (R111), then the command-id; bytes 0 and 9 are not looked at
(R117). -/
def parse (order : PmOrder) (f : InFrame) : ParseResult :=
  if validateValue f.bytes 2 7 = false then .invalid .badChecksum
  else if f.commandId = Config.dataId then
    .dataReading (reading order f.p0 f.p1) (reading order f.p2 f.p3) (join16 f.idHi f.idLo)
  else if f.commandId = Config.replyId then
    .replyAck f.p0 f.p1 f.p2 f.p3 (join16 f.idHi f.idLo)
  else .invalid .unknownCommand

/-- Whether a parse result is `Invalid`, for either reason (R116). -/
def isInvalid : ParseResult → Bool
  | .invalid _ => true
  | _ => false

/-- PARSE of `FB` in the byte order the hardware is built with (R45). -/
def parseFb (s : State) : ParseResult := parse s.params.pmOrder s.fb

/-! What APPLY writes (R126, R128, R129). -/

/-- The value byte of a Reply that feeds MODE, POWER and INTERVAL: `REPLY_VALUE_SEL` (R128, D14). -/
def replyValue (c : Params) (value0 value1 value2 : Byte) : Byte :=
  match c.replyValueSel with
  | 0 => value0
  | 1 => value1
  | 2 => value2

/-- APPLY of a `DataReading` (R129). -/
def latchReading (pm25Raw pm10Raw deviceId : Word16) (s : State) : State :=
  { s with pm25 := pm25Raw, pm10 := pm10Raw, devid := deviceId }

/-- APPLY of a `ReplyAck`: `DEVID` always, and the one register matching the action (R128). -/
def latchReply (c : Params) (action value0 value1 value2 : Byte) (deviceId : Word16) (s : State) :
    State :=
  let v := replyValue c value0 value1 value2
  let t := { s with devid := deviceId }
  if action = Config.actMode then { t with mode := v.setWidth 1 }
  else if action = Config.actState then { t with power := v.setWidth 1 }
  else if action = Config.actInterval then { t with interval := v }
  else if action = c.actFirmware then { t with fw := ⟨value0, value1, value2⟩ }
  else t

/-- The end of an APPLY micro-step: `applied <- 1; phase <- TEST` (R126). -/
def finishApply (s : State) : State := { setApplied s with phase := .test }

/-- What replaces taking an exception (R165): on an `Invalid` frame the scanner goes to TEST and
nothing else changes; no state is saved, nothing is recorded, and the ten bytes stay lost (R127). -/
def discardFrame (s : State) : State := { s with phase := .test }

/-- The APPLY or DISCARD micro-step on the result of PARSE (R126, R127). -/
def applyResult (c : Params) (r : ParseResult) (s : State) : State :=
  match r with
  | .dataReading p25 p10 id => finishApply (latchReading p25 p10 id s)
  | .replyAck a v0 v1 v2 id => finishApply (latchReply c a v0 v1 v2 id s)
  | .invalid _ => discardFrame s

/-! Port OP (R8). -/

/-- The block is idle: `phase = IDLE` and no command form in progress (R23). -/
abbrev State.Idle (s : State) : Prop := s.phase = .idle ∧ s.cmdBusy = false

/-- The operation completes with a result on port OP. -/
def complete (op : OpName) (r : Result) (s : State) : State :=
  { s with completions := s.completions ++ [⟨op, r⟩] }

/-- A request made while the block is busy is held: it has no step yet (R8, R12). -/
def hold (i : Instr) (s : State) : State :=
  { s with held := s.held ++ (encode s.params i).request.toList }

/-- Port OP accepts a request only when the block is idle, and holds it otherwise (R8). -/
def onPort (i : Instr) (accepted : State → Host.Outcome State Fault Refusal) (s : State) :
    Host.Outcome State Fault Refusal :=
  if s.Idle then accepted s else .next (hold i s)

/-! Starting and ending the operations of more than one step. -/

/-- The START micro-step: `applied <- 0; phase <- TEST` (R120). -/
def startDrain (s : State) : State := { clearApplied s with phase := .test }

/-- A DRAIN completes with the flag `applied` (R121, R130), and with it the command form whose last
stage it is, if one is in progress (R140). -/
def completeDrain (s : State) : State :=
  complete s.latched (.bit s.applied) { s with phase := .idle, cmdBusy := false }

/-- Acceptance of a command form and its stage 1: `cmd_busy <- 1; TB <- BUILD(...)` (R140, R141). -/
def startForm (op : OpName) (action : Byte) (set : Bool) (address : Nat) (extra : Extra)
    (s : State) : State :=
  { s with cmdBusy := true, latched := op, stage := .send, tb := build action set address extra }

/-- Stage 2 of a command form on the frame `f`: `TP.write(f)`, then the delay (R140 to R142). -/
def sendFrame (f : CmdFrame) (s : State) : State := { tpWrite f s with stage := .wait }

/-! Whose turn it is (R7). -/

/-- The next turn of a schedule and the schedule after it: the listed turns first, then as `later`
says (log 5). -/
def nextTurn (agenda : List Turn) (later : Later) : Turn × List Turn × Later :=
  match agenda with
  | turn :: rest => (turn, rest, later)
  | [] =>
    match later with
    | .block => (.block, [], .block)
    | .cycle first rest => (first, rest, .cycle first rest)
    | .free k => (Config.freeTurn k, [], .free (k + 1))

/-- The next turn. -/
def State.turn (s : State) : Turn := (nextTurn s.agenda s.later).1

/-- The state with the next turn taken off the schedule. -/
def State.afterTurn (s : State) : State :=
  { s with agenda := (nextTurn s.agenda s.later).2.1, later := (nextTurn s.agenda s.later).2.2 }

/-! The environment's turns (R7) and RESET (R180). -/

/-- LINK_RX appends one byte (R33). -/
def linkRx (b : Byte) (s : State) : State := { s with rxq := s.rxq ++ [b] }

/-- LINK_TX removes bytes from the head of TXQ (R7, R34): one in each of its turns, if there is one, and
several in as many turns. How many one step removes the spec leaves open; one is the model's choice
(DESIGN CHOICE, log 28). The record of sent bytes takes the byte (log 27). -/
def linkTx (s : State) : State := { s with txq := s.txq.tail, sent := s.sent ++ s.txq.take 1 }

/-- HOST makes a request at port OP; it waits there until the block serves it (R8). -/
def hostRequest (r : OpRequest) (s : State) : State := { s with held := s.held ++ [r] }

/-- The RESET event: every block-owned element takes its reset value, an operation in progress is
abandoned without completing, and RXQ and TXQ are not touched (R180, R181); `FW` takes the parameter
`FW_RESET` (R30). -/
def resetBlock (s : State) : State :=
  { s with
    fb := drawnFb s.draws
    tb := drawnTb s.draws
    phase := .idle
    cmdBusy := false
    applied := false
    devid := Config.broadcast
    pm25 := Config.resetPm25 s.draws
    pm10 := Config.resetPm10 s.draws
    mode := 0#1
    power := 1#1
    interval := 0#8
    fw := s.params.fwReset
    stage := .send
    latched := .drain
    draws := s.draws + 1 }

/-- The `k`-th of a non-empty list of held requests, or the last when `k` is beyond it, and the
others in their order. -/
def pickHeld (r : OpRequest) : List OpRequest → Nat → OpRequest × List OpRequest
  | [], _ => (r, [])
  | r' :: rs, 0 => (r, r' :: rs)
  | r' :: rs, k + 1 => ((pickHeld r' rs k).1, r :: (pickHeld r' rs k).2)

end Sys2Proof.Machine
end

