-- ==== Sys2Proof/Machine/Accessors.lean ====
section
/-! DEFINITION. The meanings of the six accessors (44_commands.md R150 to R156): each returns one result
register in one step and writes nothing. -/

namespace Sys2Proof.Machine

/-- `RD.DEVID() -> u16` (R150). -/
def execRdDevid (s : State) : Host.Outcome State Fault Refusal :=
  onPort .rdDevid (fun s => .next (complete .rdDevid (.u16 s.devid) s)) s

/-- `RD.MODE() -> bool`: true iff MODE = 1 (R151). -/
def execRdMode (s : State) : Host.Outcome State Fault Refusal :=
  onPort .rdMode (fun s => .next (complete .rdMode (.bit (s.mode == 1#1)) s)) s

/-- `RD.POWER() -> bool`: true iff POWER = 1 (R152). -/
def execRdPower (s : State) : Host.Outcome State Fault Refusal :=
  onPort .rdPower (fun s => .next (complete .rdPower (.bit (s.power == 1#1)) s)) s

/-- `RD.INTERVAL() -> u8` (R153). -/
def execRdInterval (s : State) : Host.Outcome State Fault Refusal :=
  onPort .rdInterval (fun s => .next (complete .rdInterval (.u8 s.interval) s)) s

/-- `RD.PM25() -> PM25/10`: the raw count of tenths (R154, R115). -/
def execRdPm25 (s : State) : Host.Outcome State Fault Refusal :=
  onPort .rdPm25 (fun s => .next (complete .rdPm25 (.tenths s.pm25) s)) s

/-- `RD.PM10() -> PM10/10`: the raw count of tenths (R155, R115). -/
def execRdPm10 (s : State) : Host.Outcome State Fault Refusal :=
  onPort .rdPm10 (fun s => .next (complete .rdPm10 (.tenths s.pm10) s)) s

/-- The value a host sees in a reading: the exact rational raw/10, in µg/m³ (R115). -/
def tenthsValue (raw : Word16) : Rat := (raw.toNat : Rat) / 10

end Sys2Proof.Machine
end

