-- ==== Sys2Proof/Machine/Codec.lean ====
section
/-! DEFINITION. The meanings of the operations that read no block state and complete in one step:
CHECKSUM and VALIDATE (40_checksum.md), BUILD (41_encoder.md) and PARSE (42_decoder.md). They write no
buffer, no register and no flag; their only effect is the completion on port OP. -/

namespace Sys2Proof.Machine

/-- `CHECKSUM(buf, start, stop) -> u8` (R90). -/
def execChecksum (buf : List Byte) (start stop : Int) (s : State) :
    Host.Outcome State Fault Refusal :=
  onPort (.checksum buf start stop) (fun s =>
    if checksumDomain buf.length start stop then
      .next (complete .checksum (.u8 (checksumValue buf start stop)) s)
    else .refused .indexOutsideBuffer) s

/-- `VALIDATE(buf, start, stop) -> bool` (R92). -/
def execValidate (buf : List Byte) (start stop : Int) (s : State) :
    Host.Outcome State Fault Refusal :=
  onPort (.validate buf start stop) (fun s =>
    if validateDomain buf.length start stop then
      .next (complete .validate (.bit (validateValue buf start stop)) s)
    else .refused .indexOutsideBuffer) s

/-- `BUILD(action, set, address, extra) -> byte[19]` (R100); `TB` is not written (R22). -/
def execBuild (action : Byte) (set : Bool) (address : Int) (extra : Extra) (s : State) :
    Host.Outcome State Fault Refusal :=
  onPort (.build action set address extra) (fun s =>
    if unsignedDomain address then
      .next (complete .build (.frame (build action set address.toNat extra)) s)
    else .refused .negativeOperand) s

/-- `PARSE(buf) -> result` (R110); `FB` is not touched (R21). -/
def execParse (buf : InFrame) (s : State) : Host.Outcome State Fault Refusal :=
  onPort (.parse buf) (fun s =>
    .next (complete .parse (.parsed (parse s.params.pmOrder buf)) s)) s

end Sys2Proof.Machine
end

