-- ==== Sys2Proof/Machine/Commands.lean ====
section
/-! DEFINITION. The meanings of the five command forms (44_commands.md R143 to R147): acceptance and
stage 1. Stages 2 to 4 are the micro-steps that follow (Machine/Fetch.lean). No form writes a result
register (R149). -/

namespace Sys2Proof.Machine

/-- A command form on port OP: a negative address is refused (R103), any other truncated (R68). -/
def commandForm (i : Instr) (op : OpName) (action : Byte) (set : Bool) (addr : Option Int)
    (extra : Extra) (s : State) : Host.Outcome State Fault Refusal :=
  onPort i (fun s =>
    if unsignedDomain (addrOperand addr) then
      .next (startForm op action set (addrOperand addr).toNat extra s)
    else .refused .negativeOperand) s

/-- `SETID(id, addr)`: the id's low 16 bits at `EXTRA_AT_NEWID`; a negative id is refused (R143,
D20). -/
def execSetId (id : Int) (addr : Option Int) (s : State) : Host.Outcome State Fault Refusal :=
  onPort (.setId id addr) (fun s =>
    if unsignedDomain id then
      commandForm (.setId id addr) .setId Config.actId true addr
        (newIdExtra s.params (hi8 id.toNat) (lo8 id.toNat)) s
    else .refused .negativeOperand) s

/-- `SETMODE(passive, addr)` (R144). -/
def execSetMode (passive : Bool) (addr : Option Int) (s : State) :
    Host.Outcome State Fault Refusal :=
  commandForm (.setMode passive addr) .setMode Config.actMode true addr
    (valueExtra s.params (boolByte passive)) s

/-- `SETSTATE(awake, addr)` (R145). -/
def execSetState (awake : Bool) (addr : Option Int) (s : State) :
    Host.Outcome State Fault Refusal :=
  commandForm (.setState awake addr) .setState Config.actState true addr
    (valueExtra s.params (boolByte awake)) s

/-- `SETINTERVAL(minutes, addr)`: the minutes are clamped to [0,30] before encoding (R146). -/
def execSetInterval (minutes : Int) (addr : Option Int) (s : State) :
    Host.Outcome State Fault Refusal :=
  commandForm (.setInterval minutes addr) .setInterval Config.actInterval true addr
    (valueExtra s.params (minutesByte minutes)) s

/-- `QUERY(addr)`: the one form with the set flag 0 (R147). -/
def execQuery (addr : Option Int) (s : State) : Host.Outcome State Fault Refusal :=
  commandForm (.query addr) .query Config.actQuery false addr Extra.zero s

end Sys2Proof.Machine
end

