-- ==== Sys2Proof/Machine/Inbound.lean ====
section
/-! DEFINITION. The meanings of the `IN10` rows. An inbound frame, as an instruction, is what the APPLY
or DISCARD micro-step does with it after VALID has decoded it (43_scanner.md R125 to R129; log 12). -/

namespace Sys2Proof.Machine

/-- `IN.BADSUM`: `Invalid(BAD_CHECKSUM)`, the DISCARD micro-step (R111, R127). -/
def execInBadsum (_commandId _p0 _p1 _p2 _p3 : Byte) (_id : Word16) (_checksum _tail : Byte)
    (s : State) : Host.Outcome State Fault Refusal :=
  .next (applyResult s.params (.invalid .badChecksum) s)

/-- `IN.DATA`: PM25, PM10 and DEVID are written (R112, R129). -/
def execInData (w2 w3 w4 w5 : Byte) (id : Word16) (_tail : Byte) (s : State) :
    Host.Outcome State Fault Refusal :=
  .next (applyResult s.params (.dataReading
    (reading s.params.pmOrder w2 w3) (reading s.params.pmOrder w4 w5) id) s)

/-- `IN.REPLY.MODE`: MODE and DEVID are written (R114, R128). -/
def execInReplyMode (v0 v1 v2 : Byte) (id : Word16) (_tail : Byte) (s : State) :
    Host.Outcome State Fault Refusal :=
  .next (applyResult s.params (.replyAck Config.actMode v0 v1 v2 id) s)

/-- `IN.REPLY.ID`: DEVID is written (R114, R128). -/
def execInReplyId (v0 v1 v2 : Byte) (id : Word16) (_tail : Byte) (s : State) :
    Host.Outcome State Fault Refusal :=
  .next (applyResult s.params (.replyAck Config.actId v0 v1 v2 id) s)

/-- `IN.REPLY.STATE`: POWER and DEVID are written (R114, R128). -/
def execInReplyState (v0 v1 v2 : Byte) (id : Word16) (_tail : Byte) (s : State) :
    Host.Outcome State Fault Refusal :=
  .next (applyResult s.params (.replyAck Config.actState v0 v1 v2 id) s)

/-- `IN.REPLY.FIRMWARE`: FW and DEVID are written (R114, R128). -/
def execInReplyFirmware (v0 v1 v2 : Byte) (id : Word16) (_tail : Byte) (s : State) :
    Host.Outcome State Fault Refusal :=
  .next (applyResult s.params (.replyAck s.params.actFirmware v0 v1 v2 id) s)

/-- `IN.REPLY.INTERVAL`: INTERVAL, unclamped, and DEVID are written (R114, R128). -/
def execInReplyInterval (v0 v1 v2 : Byte) (id : Word16) (_tail : Byte) (s : State) :
    Host.Outcome State Fault Refusal :=
  .next (applyResult s.params (.replyAck Config.actInterval v0 v1 v2 id) s)

/-- `IN.REPLY.OTHER`: a valid Reply whose action has no register; DEVID is written (R114, R128). -/
def execInReplyOther (action v0 v1 v2 : Byte) (id : Word16) (_tail : Byte) (s : State) :
    Host.Outcome State Fault Refusal :=
  .next (applyResult s.params (.replyAck action v0 v1 v2 id) s)

/-- `IN.UNKNOWN`: `Invalid(UNKNOWN_COMMAND)`, the DISCARD micro-step (R116, R127). -/
def execInUnknown (_commandId _p0 _p1 _p2 _p3 : Byte) (_id : Word16) (_tail : Byte) (s : State) :
    Host.Outcome State Fault Refusal :=
  .next (applyResult s.params (.invalid .unknownCommand) s)

end Sys2Proof.Machine
end

