-- ==== Sys2Proof/Machine/Outbound.lean ====
section
/-! DEFINITION. The meanings of the `CMD19` rows. A command frame, as an instruction, is what stage 2 of
a command form does with it: the nineteen bytes are appended to TXQ in one step, and the form enters
its delay (44_commands.md R140 to R142; log 12). -/

namespace Sys2Proof.Machine

/-- `CMD.MODE`, the frame SETMODE writes (R144). -/
def execCmdMode (passive : Bool) (addr : Word16) (s : State) : Host.Outcome State Fault Refusal :=
  .next (sendFrame (cmdTo Config.actMode true (valueExtra s.params (boolByte passive)) addr) s)

/-- `CMD.QUERY`, the frame QUERY writes (R147). -/
def execCmdQuery (addr : Word16) (s : State) : Host.Outcome State Fault Refusal :=
  .next (sendFrame (cmdTo Config.actQuery false Extra.zero addr) s)

/-- `CMD.ID`, the frame SETID writes (R143). -/
def execCmdId (newId addr : Word16) (s : State) : Host.Outcome State Fault Refusal :=
  .next (sendFrame
    (cmdTo Config.actId true (newIdExtra s.params (hi8 newId.toNat) (lo8 newId.toNat)) addr) s)

/-- `CMD.STATE`, the frame SETSTATE writes (R145). -/
def execCmdState (awake : Bool) (addr : Word16) (s : State) : Host.Outcome State Fault Refusal :=
  .next (sendFrame (cmdTo Config.actState true (valueExtra s.params (boolByte awake)) addr) s)

/-- `CMD.INTERVAL`, the frame SETINTERVAL writes (R146). -/
def execCmdInterval (minutes : Byte) (addr : Word16) (s : State) :
    Host.Outcome State Fault Refusal :=
  .next (sendFrame (cmdTo Config.actInterval true (valueExtra s.params minutes) addr) s)

/-- `CMD.ANY`, any other frame BUILD can produce (R100). -/
def execCmdAny (action : Byte) (set : Bool) (extra : Extra) (addr : Word16) (s : State) :
    Host.Outcome State Fault Refusal :=
  .next (sendFrame (cmdTo action set extra addr) s)

end Sys2Proof.Machine
end

