-- ==== Sys2Proof/Machine/Scanner.lean ====
section
/-! DEFINITION. DRAIN and the scanner's micro-steps TEST, SCAN, READ and VALID (43_scanner.md R120 to
R125); APPLY and DISCARD run the decoded frame (Machine/Inbound.lean, Machine/Fetch.lean). -/

namespace Sys2Proof.Machine

/-- `DRAIN() -> bool`: the START micro-step (R120, R131). -/
def execDrain (s : State) : Host.Outcome State Fault Refusal :=
  onPort .drain (fun s => .next (startDrain { s with latched := .drain })) s

/-- TEST, the loop condition: go on to SCAN while ten bytes are available, else complete (R121). -/
def testStep (s : State) : State :=
  if 10 ≤ tpAvail s then { s with phase := .scan } else completeDrain s

/-- The second half of SCAN: a head is found or the queue is exhausted (R123). -/
def scanFound (s : State) : State :=
  { s with phase := if 10 ≤ tpAvail s then .read else .test }

/-- SCAN: discard one byte that is not 0xAA and stay in SCAN, else leave it (R122, R123). -/
def scanStep (s : State) : State :=
  match tpPeek s with
  | some b => if b = Config.headByte then scanFound s else tpDiscard s
  | none => scanFound s

/-- READ: `FB <- TP.read(10); phase <- VALID` (R124). -/
def readStep (s : State) : Host.Outcome State Fault Refusal :=
  match tpReadToFb s with
  | some t => .next { t with phase := .valid }
  | none => .refused .readBelowTen

/-- VALID: PARSE decides between DISCARD and APPLY (R125). -/
def validStep (s : State) : State :=
  { s with phase := if isInvalid (parseFb s) then .discard else .apply }

end Sys2Proof.Machine
end

