-- ==== Sys2Proof/Machine/Dispatch.lean ====
section
/-! DEFINITION. The meaning of every instruction: one arm for each row of spec/opcode_table.json. -/

namespace Sys2Proof.Machine

def exec (i : Instr) (s : State) : Host.Outcome State Fault Refusal :=
  match i with
  | .cmdMode passive addr => Sys2Proof.Machine.execCmdMode passive addr s
  | .cmdQuery addr => Sys2Proof.Machine.execCmdQuery addr s
  | .cmdId newId addr => Sys2Proof.Machine.execCmdId newId addr s
  | .cmdState awake addr => Sys2Proof.Machine.execCmdState awake addr s
  | .cmdInterval minutes addr => Sys2Proof.Machine.execCmdInterval minutes addr s
  | .cmdAny action set extra addr => Sys2Proof.Machine.execCmdAny action set extra addr s
  | .inBadsum c p0 p1 p2 p3 id k tail => Sys2Proof.Machine.execInBadsum c p0 p1 p2 p3 id k tail s
  | .inData w2 w3 w4 w5 id tail => Sys2Proof.Machine.execInData w2 w3 w4 w5 id tail s
  | .inReplyMode v0 v1 v2 id tail => Sys2Proof.Machine.execInReplyMode v0 v1 v2 id tail s
  | .inReplyId v0 v1 v2 id tail => Sys2Proof.Machine.execInReplyId v0 v1 v2 id tail s
  | .inReplyState v0 v1 v2 id tail => Sys2Proof.Machine.execInReplyState v0 v1 v2 id tail s
  | .inReplyFirmware v0 v1 v2 id tail => Sys2Proof.Machine.execInReplyFirmware v0 v1 v2 id tail s
  | .inReplyInterval v0 v1 v2 id tail => Sys2Proof.Machine.execInReplyInterval v0 v1 v2 id tail s
  | .inReplyOther action v0 v1 v2 id tail => Sys2Proof.Machine.execInReplyOther action v0 v1 v2 id tail s
  | .inUnknown c p0 p1 p2 p3 id tail => Sys2Proof.Machine.execInUnknown c p0 p1 p2 p3 id tail s
  | .checksum buf start stop => Sys2Proof.Machine.execChecksum buf start stop s
  | .validate buf start stop => Sys2Proof.Machine.execValidate buf start stop s
  | .build action set address extra => Sys2Proof.Machine.execBuild action set address extra s
  | .parse buf => Sys2Proof.Machine.execParse buf s
  | .drain => Sys2Proof.Machine.execDrain s
  | .setId id addr => Sys2Proof.Machine.execSetId id addr s
  | .setMode passive addr => Sys2Proof.Machine.execSetMode passive addr s
  | .setState awake addr => Sys2Proof.Machine.execSetState awake addr s
  | .setInterval minutes addr => Sys2Proof.Machine.execSetInterval minutes addr s
  | .query addr => Sys2Proof.Machine.execQuery addr s
  | .rdDevid => Sys2Proof.Machine.execRdDevid s
  | .rdMode => Sys2Proof.Machine.execRdMode s
  | .rdPower => Sys2Proof.Machine.execRdPower s
  | .rdInterval => Sys2Proof.Machine.execRdInterval s
  | .rdPm25 => Sys2Proof.Machine.execRdPm25 s
  | .rdPm10 => Sys2Proof.Machine.execRdPm10 s

end Sys2Proof.Machine
end

