-- ==== Sys2Proof/Machine/Fetch.lean ====
section
/-! DEFINITION. The three places where BLOCK takes an instruction and runs it: a held request at port OP
(00_scope.md R8), the built frame in `TB` (44_commands.md R141), the candidate frame in `FB`
(43_scanner.md R126); the micro-step of BLOCK and the turn of an agent; the placing of a table word
where the next step runs it. -/

namespace Sys2Proof.Machine

/-- An idle block serves one held request, any one when several are held (R184); with none it waits
for the host's operation (R182). -/
def acceptStage (s : State) : Host.Outcome State Fault Refusal :=
  match s.held with
  | [] => .next s
  | r :: rs =>
    match decodeRequest (pickHeld r rs (Config.servingOrder s.draws)).1 with
    | .ok i =>
      exec i { s with held := (pickHeld r rs (Config.servingOrder s.draws)).2, draws := s.draws + 1 }
    | .error _ => .refused .malformedRequest

/-- Stage 2 of a command form: the frame in `TB` is decoded and run. `TP.write` looks at no byte
(R141), so bytes that are no frame, which only an unreachable `TB` holds, are written all the same
(log 19). -/
def sendStage (s : State) : Host.Outcome State Fault Refusal :=
  match decodeCmd s.params s.tb with
  | .ok i => exec i s
  | .error _ => .next (sendFrame s.tb s)

/-- APPLY: the frame in `FB` is decoded and run (R126). -/
def applyStage (s : State) : Host.Outcome State Fault Refusal := exec (classifyIn s.params s.fb) s

/-- One micro-step of BLOCK. -/
def blockStep (s : State) : Host.Outcome State Fault Refusal :=
  match s.phase with
  | .idle =>
    if s.cmdBusy then
      match s.stage with
      | .send => sendStage s
      | .wait => .next (startDrain s)
    else acceptStage s
  | .test => .next (testStep s)
  | .scan => .next (scanStep s)
  | .read => readStep s
  | .valid => .next (validStep s)
  | .apply => applyStage s
  | .discard => .next (discardFrame s)

/-- One turn of one agent (R7): the schedule's next, on the state with that turn taken off. -/
def takeTurn (s : State) : Host.Outcome State Fault Refusal :=
  match s.turn with
  | .block => blockStep s.afterTurn
  | .rx b => .next (linkRx b s.afterTurn)
  | .tx => .next (linkTx s.afterTurn)
  | .host r => .next (hostRequest r s.afterTurn)
  | .reset => .next (resetBlock s.afterTurn)

/-- The state with the bytes of a table word placed where the next step runs them: nineteen bytes in
`TB` before stage 2 of a command form, ten bytes in `FB` at the micro-step that VALID chooses for them,
and every turn to come BLOCK's (log 13). Other widths stand for no frame and change nothing. -/
def placeBytes (s : State) (l : List Byte) : State :=
  match CmdFrame.ofBytes l with
  | some f =>
    { s with tb := f, phase := .idle, cmdBusy := true, stage := .send, agenda := [], later := .block }
  | none =>
    match InFrame.ofBytes l with
    | some f => validStep { s with fb := f, agenda := [], later := .block }
    | none => s

end Sys2Proof.Machine
end

