-- ==== Sys2Proof/Machine/Step.lean ====
section
/-! DEFINITION. The step: one turn of one agent (00_scope.md R7). -/

namespace Sys2Proof.Machine

/-- One step of the machine. -/
def step (s : State) : Host.Outcome State Fault Refusal := takeTurn s

/-- `s` with the table word `w` of `nbits` bits placed where the next step runs it (log 13). -/
def State.withFetchWord (s : State) (nbits w : Nat) : State := placeBytes s (bytesOfNat (nbits / 8) w)

end Sys2Proof.Machine
end

