-- ==== Sys2Proof/Machine/Observe.lean ====
section
/-! DEFINITION. What an observer of the machine sees (00_scope.md R9) and when a run is over (R9,
70_reset_and_hazards.md R196). -/

namespace Sys2Proof.Machine

/-- What R9 lets an observer see, "and nothing else". -/
structure Observation where
  /-- The results returned on OP, oldest first. -/
  results : List Completion
  /-- The sequence of bytes appended to TXQ, oldest first. -/
  written : List Byte
  /-- The content of RXQ. -/
  rxq : List Byte
deriving DecidableEq, Repr

/-- The sequence of bytes appended to TXQ: those LINK_TX has taken, then those still queued (R9, R34;
log 27). -/
def State.written (s : State) : List Byte := s.sent ++ s.txq

/-- The observer's view of a state (R9). -/
def State.observe (s : State) : Observation := ⟨s.completions, s.written, s.rxq⟩

/-- Every operation the host has issued so far has completed (R196). -/
abbrev State.allCompleted (s : State) : Prop := s.Idle ∧ s.held = []

/-- A turn on which the host issues an operation. -/
def Turn.isHost : Turn → Bool
  | .host _ => true
  | .block | .rx _ | .tx | .reset => false

/-- No operation is issued on a schedule's turns; of turns that are not known this is not said. -/
def hostIsDone (agenda : List Turn) (later : Later) : Bool :=
  agenda.all (fun turn => !turn.isHost) &&
    match later with
    | .block => true
    | .cycle first rest => (first :: rest).all (fun turn => !turn.isHost)
    | .free _ => false

/-- The run is over: the last operation the host issues has completed (R9, R196). -/
abbrev State.runOver (s : State) : Prop :=
  s.allCompleted ∧ hostIsDone s.agenda s.later = true

end Sys2Proof.Machine
end

