-- ==== Sys2Proof/Safety.lean ====
section
/-! DEFINITION. What counts as a safe run and the terms claims use: the invariant of the machine, the
segmentation of the byte stream (43_scanner.md R132), what a DRAIN leaves in RXQ, whose turn it is
and which turns come. -/

namespace Sys2Proof.Machine

/-! Turns. -/

/-- The next turn is BLOCK's. -/
def State.blocksTurn (s : State) : Bool := decide (s.turn = .block)

/-- Every turn to come is BLOCK's: no other agent takes a step. -/
abbrev State.quiet (s : State) : Prop := s.agenda = [] ∧ s.later = .block

/-- The next `n` turns of a schedule. -/
def turnsAhead : Nat → List Turn → Later → List Turn
  | 0, _, _ => []
  | n + 1, agenda, later =>
    (nextTurn agenda later).1 :: turnsAhead n (nextTurn agenda later).2.1 (nextTurn agenda later).2.2

/-- The state after `n` turns are taken off the schedule and nothing else happens. -/
def State.afterTurns : Nat → State → State
  | 0, s => s
  | n + 1, s => State.afterTurns n s.afterTurn

/-- The bytes LINK_RX appends in these turns, in order. -/
def arrivals : List Turn → List Byte
  | [] => []
  | .rx b :: rest => b :: arrivals rest
  | .block :: rest => arrivals rest
  | .tx :: rest => arrivals rest
  | .host _ :: rest => arrivals rest
  | .reset :: rest => arrivals rest

/-- The bytes that have not passed the scanner yet, as far as the next `n` turns show: those in RXQ and
those that arrive in these turns. -/
def State.stream (n : Nat) (s : State) : List Byte :=
  s.rxq ++ arrivals (turnsAhead n s.agenda s.later)

/-- The environment that 70_reset_and_hazards.md R194 lets a claim assume: LINK_RX takes finitely many
steps and BLOCK is served again and again; and no RESET comes, which would abandon the operation. -/
def envSettles (agenda : List Turn) (later : Later) : Bool :=
  agenda.all (fun turn => decide (turn ≠ .reset)) &&
    match later with
    | .block => true
    | .cycle first rest =>
      (first :: rest).all (fun turn => decide (turn ≠ .reset) && (arrivals [turn]).isEmpty)
      && (first :: rest).contains .block
    | .free _ => false

/-- The machine built with the parameters `c` (R6); at `Config.params` it is `Sys2Proof.core`. -/
def machineAt (c : Params) : Host.Core where
  State := State
  Fault := Fault
  Refusal := Refusal
  step := step
  reset := State.resetAt c

/-- `k` steps, stopping at the first fault or refusal. -/
def runFor : Nat → State → Host.Outcome State Fault Refusal
  | 0, s => .next s
  | k + 1, s =>
    match step s with
    | .next t => runFor k t
    | .fault e => .fault e
    | .refused e => .refused e

/-! The segmentation (R132). -/

/-- `seg(S)`: drop the bytes before the first 0xAA; if fewer than ten bytes remain, stop; otherwise the
next ten bytes are a candidate frame, and so on with the rest (R132). -/
def seg : List Byte → List InFrame
  | [] => []
  | b0 :: t =>
    if b0 = Config.headByte then
      match t with
      | b1 :: b2 :: b3 :: b4 :: b5 :: b6 :: b7 :: b8 :: b9 :: rest =>
        ⟨b0, b1, b2, b3, b4, b5, b6, b7, b8, b9⟩ :: seg rest
      | _ => []
    else seg t

/-- What a DRAIN without arrivals leaves of a queue once it is in SCAN (R122, R123): a head with fewer
than nine bytes after it is kept, and after a frame fewer than ten bytes are kept (R121). -/
def scanResidue : List Byte → List Byte
  | [] => []
  | b0 :: t =>
    if b0 = Config.headByte then
      match t with
      | _ :: _ :: _ :: _ :: _ :: _ :: _ :: _ :: _ :: rest =>
        if rest.length < 10 then rest else scanResidue rest
      | short => b0 :: short
    else scanResidue t

/-- What a DRAIN without arrivals leaves of a queue: everything, when fewer than ten bytes are
available (R121, R134). -/
def drainResidue (q : List Byte) : List Byte :=
  if q.length < 10 then q else scanResidue q

/-- The frames applied or discarded one after the other, in stream order (R137). -/
def applyFrames (s : State) (fs : List InFrame) : State :=
  fs.foldl (fun u f => applyResult u.params (parse u.params.pmOrder f) u) s

/-- The bytes' sum on unbounded integers (R90). -/
def byteSum (l : List Byte) : Nat := (l.map BitVec.toNat).sum

/-- The nineteen bytes of a command frame, written out from the field table of R61, with the address
modulo 65536 high byte first (R68) and the checksum over bytes 2..16 (R69). -/
def commandBytes (action set : Byte) (extra : List Byte) (address : Nat) : List Byte :=
  let hi := BitVec.ofNat 8 (address / 256)
  let lo := BitVec.ofNat 8 address
  let sum := BitVec.ofNat 8 (byteSum ([action, set] ++ extra ++ [hi, lo]))
  [0xAA, 0xB4, action, set] ++ extra ++ [hi, lo, sum, 0xAB]

/-- The eleven extra bytes of a command with one value byte `v`: `v` at frame byte `EXTRA_AT_VALUE`, all
others 0 (R144 to R146, R67). -/
def valueBytes (c : Params) (v : Byte) : List Byte :=
  (List.range 11).map fun i => if i + 4 = c.extraAtValue then v else 0

/-- The eleven extra bytes of SETID: the id mod 65536, high byte first, at `EXTRA_AT_NEWID`, all others 0
(R143, R67). -/
def newIdBytes (c : Params) (id : Nat) : List Byte :=
  (List.range 11).map fun i =>
    if i + 4 = c.extraAtNewIdHi then BitVec.ofNat 8 (id / 256)
    else if i + 4 = c.extraAtNewIdLo then BitVec.ofNat 8 id else 0

/-- The value byte of a Reply that `REPLY_VALUE_SEL` names (R128). -/
def selectedValue (c : Params) (v0 v1 v2 : Byte) : Byte :=
  if c.replyValueSel = 0 then v0 else if c.replyValueSel = 1 then v1 else v2

/-- The sum that byte 8 of an inbound frame must carry, on unbounded integers mod 256 (R70). -/
def inboundSumHolds (f : InFrame) : Bool :=
  f.checksum.toNat == byteSum [f.p0, f.p1, f.p2, f.p3, f.idHi, f.idLo] % 256

/-- A reading in numbers: the wire bytes weighted by `PM_ORDER` (R44). -/
def readingNat (order : PmOrder) (first second : Byte) : Nat :=
  match order with
  | .hiFirst => 256 * first.toNat + second.toNat
  | .loFirst => 256 * second.toNat + first.toNat

/-- The result registers together, the source's session state (R20). -/
def State.results (s : State) : Word16 × Word16 × Word16 × BitVec 1 × BitVec 1 × Byte × Firmware :=
  (s.devid, s.pm25, s.pm10, s.mode, s.power, s.interval, s.fw)

/-! The invariant. -/

/-- The names of the five command forms (R3). -/
def isFormName : OpName → Bool
  | .setId | .setMode | .setState | .setInterval | .query => true
  | .checksum | .validate | .build | .parse | .drain
  | .rdDevid | .rdMode | .rdPower | .rdInterval | .rdPm25 | .rdPm10 => false

/-- `TB` holds a frame of one of the five command-form rows (R77). -/
def holdsFormFrame (c : Params) (f : CmdFrame) : Bool :=
  match decodeCmd c f with
  | .ok i => decide (i.row < 5)
  | .error _ => false

/-- What every reachable state satisfies. -/
structure State.Inv (s : State) : Prop where
  /-- The parameters make sense together (R6). -/
  legal : s.params.legal = true
  /-- READ finds ten bytes, the first a head sentinel (R123, R124). -/
  readReady : s.phase = .read →
    10 ≤ s.rxq.length ∧ s.rxq.head? = some Config.headByte
  /-- From READ until the next TEST, `FB` begins with a head sentinel (R124). -/
  candidate : s.phase = .valid ∨ s.phase = .apply ∨ s.phase = .discard →
    s.fb.head = Config.headByte
  /-- APPLY only ever meets a frame that PARSE accepts (R125). -/
  applyValid : s.phase = .apply → isInvalid (parseFb s) = false
  /-- DISCARD only ever meets a frame that PARSE does not accept (R125). -/
  discardInvalid : s.phase = .discard → isInvalid (parseFb s) = true
  /-- Between stages 1 and 2 of a command form, `TB` holds the frame of a command-form row (R141,
  R77). -/
  built : s.cmdBusy = true → s.stage = .send → holdsFormFrame s.params s.tb = true
  /-- A command form drains only after its frame was written (R140). -/
  drainsLast : s.cmdBusy = true → s.phase ≠ .idle → s.stage = .wait
  /-- `cmd_busy` is 1 only while a command form is in progress (R23). -/
  busyForm : s.cmdBusy = true → isFormName s.latched = true
  /-- A DRAIN that is no command form's last stage is a DRAIN operation (R120). -/
  idleForm : s.cmdBusy = false → s.phase ≠ .idle → s.latched = .drain

end Sys2Proof.Machine
end

