-- ==== Sys2Proof/Certificates/Slice0/Obligations.lean ====
section
/-! DEFINITION. The statements for the provers, each formalising numbered rules of spec/ (the docstring
cites them). "idle" is 10_state.md R23; a next state written as a record update of the state before
says that every other field is unchanged. The parameters of 00_scope.md R6 are the state's field `params`
(log 29), so a statement over every state holds at every value of them, or at every legal value where it
says `legal`. Statements about the model's own fields (`stage`, `latched`,
`held`, `completions`, `sent`, `agenda`, `later`, `draws`) name the entry of notes/assumptions that declares them. -/

open Sys2Proof Sys2Proof.Machine

/-! Encodings. -/

/-- Every well-formed instruction is read back from its encoding, with every operand at every value
its encoding admits: frames by their bytes (R61, R62, R80), operations by name (R78). It holds at every
legal value of the parameters of R6, which decoder and encoder take as an argument. -/
def Obligations.DecodeOfEncodeIsTheInstruction : Prop :=
  ∀ (c : Params) (i : Instr), c.legal = true → i.wf c = true → decode c (encode c i) = .ok i

/-- The other direction, at every value of the parameters: whatever bytes the decoder accepts are the
encoding of the instruction it reads, which is well formed, so no byte of a frame is dropped or
invented (R61, R62, R75). -/
def Obligations.EncodeOfDecodedBytesIsTheBytes : Prop :=
  ∀ (c : Params) (l : List Byte) (i : Instr), decodeBytes c l = .ok i →
    i.wf c = true ∧ (encode c i).bytes = l

/-- The decoder finds the first row of opcode_table.json whose mask, match and constraint a frame
meets, and refuses exactly the frames that meet none (R80). The table's rows have the parameters of R6 at
the values of log 18. -/
def Obligations.DecoderFollowsTheOpcodeTable : Prop :=
  (∀ f : InFrame, match decodeIn Config.params f with
    | .ok i => i.row = 6 + inRows.findIdx (fun row => row.admits f.bytes 7)
        ∧ ∃ row ∈ inRows, row.admits f.bytes 7 = true
    | .error _ => ∀ row ∈ inRows, row.admits f.bytes 7 = false)
  ∧ (∀ f : CmdFrame, match decodeCmd Config.params f with
    | .ok i => i.row = cmdRows.findIdx (fun row => row.admits f.bytes 16)
        ∧ ∃ row ∈ cmdRows, row.admits f.bytes 16 = true
    | .error _ => ∀ row ∈ cmdRows, row.admits f.bytes 16 = false)

/-- A few frames of 95_test_vectors.md, as table words (byte 0 in bits 7..0), decode to the
instructions they stand for (where the value and id bytes stand is log 18). -/
def Obligations.SampleFramesDecode : Prop :=
  decodeTableWord 152 0xAB26FFFF000000000000000000001E0108B4AA = none
  ∧ decodeTableWord 152 0xABA860A101A00000000000000000000105B4AA = some (.cmdId 0xA001 0xA160)
  ∧ decodeTableWord 152 0xAB25FFFF000000000000000000001E0108B4AA = some (.cmdInterval 30 0xFFFF)
  ∧ decodeTableWord 80 0xAB2C000000C80064C0AA = some (.inData 0x64 0x00 0xC8 0x00 0x0000 0xAB)
  ∧ decodeTableWord 80 0xAB2860A1001E0108C5AA
      = some (.inReplyInterval 0x01 0x1E 0x00 0xA160 0xAB)
  ∧ decodeTableWord 80 0xAB15060504030201C1AA = some (.inUnknown 0xC1 1 2 3 4 0x0506 0xAB)

/-! Checksum-8 unit. -/

/-- CHECKSUM on an idle block, whole: the sum mod 256 of the range on unbounded integers, 0 on an
empty range, refused on an index outside the buffer; only the completion changes (R90, R95, R12).
That a start below 0 is refused like a stop beyond the buffer is deduced from R90 and R12 (log 8). -/
def Obligations.ChecksumReturnsTheSum : Prop :=
  ∀ (s : State) (buf : List Byte) (start stop : Int), s.Idle →
    (start > stop → exec (.checksum buf start stop) s
      = .next { s with completions := s.completions ++ [⟨.checksum, .u8 0⟩] })
    ∧ (0 ≤ start → start ≤ stop → stop < buf.length → exec (.checksum buf start stop) s
      = .next { s with completions := s.completions ++ [⟨.checksum, .u8 (BitVec.ofNat 8
          (byteSum ((buf.drop start.toNat).take (stop - start + 1).toNat)))⟩] })
    ∧ (start ≤ stop → (start < 0 ∨ (buf.length : Int) ≤ stop) →
      exec (.checksum buf start stop) s = .refused .indexOutsideBuffer)

/-- The laws of CHECKSUM: order-free, additive, sensitive to every single byte of the range, blind
to bytes outside it and to two changes of it that cancel (R91 (b) to (e)). -/
def Obligations.ChecksumLaws : Prop :=
  (∀ (b c : List Byte) (lo hi : Nat),
    ((b.drop lo).take (hi + 1 - lo)).Perm ((c.drop lo).take (hi + 1 - lo)) →
      sum8 b lo hi = sum8 c lo hi)
  ∧ (∀ (b : List Byte) (lo m hi : Nat), lo ≤ m → m < hi →
      sum8 b lo hi = sum8 b lo m + sum8 b (m + 1) hi)
  ∧ (∀ (b : List Byte) (lo hi k : Nat) (v d : Byte), lo ≤ k → k ≤ hi → b[k]? = some v →
      sum8 (b.set k (v + d)) lo hi = sum8 b lo hi + d)
  ∧ (∀ (b : List Byte) (lo hi k : Nat) (v : Byte), k < lo ∨ hi < k →
      sum8 (b.set k v) lo hi = sum8 b lo hi)
  ∧ (∀ (b : List Byte) (lo hi j k : Nat) (u v d : Byte), lo ≤ j → j ≤ hi → lo ≤ k → k ≤ hi → j ≠ k →
      b[j]? = some u → b[k]? = some v →
      sum8 ((b.set j (u + d)).set k (v - d)) lo hi = sum8 b lo hi)

/-- VALIDATE on an idle block, whole: whether the byte at `stop + 1` is the sum mod 256 of the range;
refused outside `0 <= start <= stop`, `stop + 1 < L` (R92). -/
def Obligations.ValidateComparesTheStoredByte : Prop :=
  ∀ (s : State) (buf : List Byte) (start stop : Int), s.Idle →
    (0 ≤ start → start ≤ stop → stop + 1 < buf.length →
      ∃ b, (b = true ↔ (buf.map BitVec.toNat)[(stop + 1).toNat]?
          = some (byteSum ((buf.drop start.toNat).take (stop - start + 1).toNat) % 256))
        ∧ exec (.validate buf start stop) s
          = .next { s with completions := s.completions ++ [⟨.validate, .bit b⟩] })
    ∧ ((start < 0 ∨ stop < start ∨ (buf.length : Int) ≤ stop + 1) →
      exec (.validate buf start stop) s = .refused .indexOutsideBuffer)

/-! Encoder. -/

/-- BUILD on an idle block, whole: the nineteen bytes of R61 with any action, set flag and extra
bytes; `TB` and every other field are left alone (R100, R102, R104). -/
def Obligations.BuildReturnsTheFrame : Prop :=
  ∀ (s : State) (action : Byte) (set : Bool) (address : Int) (extra : Extra), s.Idle → 0 ≤ address →
    ∃ f : CmdFrame,
      f.bytes = commandBytes action (if set then 1 else 0) extra.bytes address.toNat
      ∧ exec (.build action set address extra) s
        = .next { s with completions := s.completions ++ [⟨.build, .frame f⟩] }

/-- The round trip: every frame BUILD returns has nineteen bytes, the fixed bytes in place, and
passes VALIDATE over bytes 2..16 (R101). -/
def Obligations.BuiltFramesValidate : Prop :=
  ∀ (s : State) (action : Byte) (set : Bool) (address : Nat) (extra : Extra), s.Idle →
    let f := build action set address extra
    exec (.validate f.bytes 2 16) s
        = .next { s with completions := s.completions ++ [⟨.validate, .bit true⟩] }
    ∧ f.bytes.length = 19 ∧ f.bytes[0]? = some 0xAA ∧ f.bytes[1]? = some 0xB4
    ∧ f.bytes[18]? = some 0xAB

/-- The address is truncated, not saturated, and a negative one is refused (R103). -/
def Obligations.BuildTruncatesTheAddress : Prop :=
  ∀ (s : State) (action : Byte) (set : Bool) (address : Int) (extra : Extra), s.Idle →
    (0 ≤ address → exec (.build action set address extra) s
      = exec (.build action set (address % 65536) extra) s)
    ∧ (address < 0 → exec (.build action set address extra) s = .refused .negativeOperand)

/-- BUILD is injective on the action, the set flag, the address mod 65536 and the extra bytes
(R105 (d)). -/
def Obligations.BuildIsInjective : Prop :=
  ∀ (a a' : Byte) (b b' : Bool) (n n' : Nat) (e e' : Extra),
    (build a b n e).bytes = (build a' b' n' e').bytes ↔
      a = a' ∧ b = b' ∧ n % 65536 = n' % 65536 ∧ e = e'

/-! Decoder. -/

/-- PARSE on an idle block, whole: the checksum first, then the command-id, with both readings by
`PM_ORDER` and the device id high byte first; `FB` and every register are left alone (R110 to R116). -/
def Obligations.ParseReturnsTheTaggedResult : Prop :=
  ∀ (s : State) (f : InFrame), s.Idle → ∃ r : ParseResult,
    exec (.parse f) s = .next { s with completions := s.completions ++ [⟨.parse, .parsed r⟩] }
    ∧ (inboundSumHolds f = false → r = .invalid .badChecksum)
    ∧ (inboundSumHolds f = true → f.commandId = 0xC0 →
        ∃ p25 p10 id, r = .dataReading p25 p10 id
          ∧ p25.toNat = readingNat s.params.pmOrder f.p0 f.p1
          ∧ p10.toNat = readingNat s.params.pmOrder f.p2 f.p3
          ∧ id.toNat = 256 * f.idHi.toNat + f.idLo.toNat)
    ∧ (inboundSumHolds f = true → f.commandId = 0xC5 →
        ∃ id, r = .replyAck f.p0 f.p1 f.p2 f.p3 id
          ∧ id.toNat = 256 * f.idHi.toNat + f.idLo.toNat)
    ∧ (inboundSumHolds f = true → f.commandId ≠ 0xC0 → f.commandId ≠ 0xC5 →
        r = .invalid .unknownCommand)

/-- PARSE does not look at bytes 0 and 9, in either byte order (R117). -/
def Obligations.ParseIgnoresHeadAndTail : Prop :=
  ∀ (order : PmOrder) (f : InFrame) (head tail : Byte),
    parse order { f with head := head, tail := tail } = parse order f

/-- A frame whose checksum is right and that is changed in exactly one of bytes 2..8 is
`Invalid(BAD_CHECKSUM)`, in either byte order (R118 (d), R91 (d)). -/
def Obligations.OneByteErrorIsDetected : Prop :=
  ∀ (order : PmOrder) (f g : InFrame) (k : Nat) (v : Byte), inboundSumHolds f = true →
    2 ≤ k → k ≤ 8 → f.bytes[k]? ≠ some v → g.bytes = f.bytes.set k v →
      parse order g = .invalid .badChecksum

/-! The scanner's micro-steps. -/

/-- START: DRAIN on an idle block, and a command form that reaches its drain stage, clear `applied` and
go to TEST; nothing else changes but, for DRAIN, the model's own `latched`, log 10 (R120). -/
def Obligations.DrainStarts : Prop :=
  (∀ s : State, s.Idle → ∃ t, exec .drain s = .next t
    ∧ t = { s with applied := false, phase := .test, latched := t.latched })
  ∧ (∀ s : State, s.blocksTurn = true → s.phase = .idle → s.cmdBusy = true → s.stage = .wait →
    step s = .next { s.afterTurn with applied := false, phase := .test })

/-- TEST: at least ten bytes go to SCAN; fewer complete the DRAIN, and the command form whose last
stage it is, with the flag `applied`, and consume nothing (R121, R130).
That `cmd_busy` falls in the same step and that `latched` names the operation are the model's choice
(log 10). -/
def Obligations.TestIsTheLoopCondition : Prop :=
  ∀ s : State, s.blocksTurn = true → s.phase = .test →
    (10 ≤ s.rxq.length → step s = .next { s.afterTurn with phase := .scan })
    ∧ (s.rxq.length < 10 → step s = .next { s.afterTurn with
        phase := .idle, cmdBusy := false
        completions := s.completions ++ [⟨s.latched, .bit s.applied⟩] })

/-- SCAN: one byte that is not 0xAA is dropped, whatever remains; at a 0xAA or an empty queue the
scanner goes to READ when ten bytes are available and to TEST when not, and keeps what is there
(R122, R123). -/
def Obligations.ScanResynchronises : Prop :=
  ∀ s : State, s.blocksTurn = true → s.phase = .scan →
    (∀ b q, s.rxq = b :: q → b ≠ 0xAA → step s = .next { s.afterTurn with rxq := q })
    ∧ (s.rxq = [] → step s = .next { s.afterTurn with phase := .test })
    ∧ (s.rxq.head? = some 0xAA → step s = .next { s.afterTurn with
        phase := if 10 ≤ s.rxq.length then .read else .test })

/-- READ: ten bytes, the first 0xAA, leave RXQ for `FB` in one step; under the invariant they are
always there (R124). -/
def Obligations.ReadTakesTenBytes : Prop :=
  ∀ s : State, s.Inv → s.blocksTurn = true → s.phase = .read →
    10 ≤ s.rxq.length ∧ ∃ f : InFrame, f.bytes = s.rxq.take 10 ∧ f.head = 0xAA
      ∧ step s = .next { s.afterTurn with fb := f, rxq := s.rxq.drop 10, phase := .valid }

/-- VALID: APPLY exactly when the checksum holds and the command-id is 0xC0 or 0xC5 (R125). -/
def Obligations.ValidChoosesApplyOrDiscard : Prop :=
  ∀ s : State, s.blocksTurn = true → s.phase = .valid →
    step s = .next { s.afterTurn with
      phase := if inboundSumHolds s.fb = true ∧ (s.fb.commandId = 0xC0 ∨ s.fb.commandId = 0xC5)
        then .apply else .discard }

/-- APPLY and DISCARD do what PARSE of `FB` calls for: the row the frame decodes to and the result of
PARSE agree on every effect (R125, R126, R127, R80). -/
def Obligations.RowMeaningAgreesWithParse : Prop :=
  ∀ s : State, exec (classifyIn s.params s.fb) s
    = .next (applyResult s.params (parse s.params.pmOrder s.fb) s)

/-! Inbound rows. -/

/-- A Data frame, applied, writes PM25, PM10 and DEVID, sets `applied` and nothing else but the phase
(R126, R129). -/
def Obligations.DataFrameIsLatched : Prop :=
  ∀ (s : State) (w2 w3 w4 w5 : Byte) (id : Word16) (tail : Byte),
    exec (.inData w2 w3 w4 w5 id tail) s = .next { s with
      pm25 := BitVec.ofNat 16 (readingNat s.params.pmOrder w2 w3)
      pm10 := BitVec.ofNat 16 (readingNat s.params.pmOrder w4 w5)
      devid := id, applied := true, phase := .test }

/-- Each Reply row writes DEVID and the one register its action names, from the value `REPLY_VALUE_SEL`
selects or, for the firmware, all three values; sets `applied` and nothing else but the phase (R126,
R128).
Which value byte is used, what code marks a firmware reply and what an unmatched action does, R128 says,
"Those three points are this spec's" (D14, D15, D26): value1 and 0x07, which `Config.params` has, are its
decisions from general knowledge (log 18, PRESUMED), and "an unmatched action still counts as applied". -/
def Obligations.ReplyFramesAreLatched : Prop :=
  ∀ (s : State) (v0 v1 v2 : Byte) (id : Word16) (tail : Byte), s.params.legal = true →
    let v := selectedValue s.params v0 v1 v2
    (∃ bit, (bit = 1#1 ↔ v.toNat % 2 = 1) ∧ exec (.inReplyMode v0 v1 v2 id tail) s
      = .next { s with mode := bit, devid := id, applied := true, phase := .test })
    ∧ (∃ bit, (bit = 1#1 ↔ v.toNat % 2 = 1) ∧ exec (.inReplyState v0 v1 v2 id tail) s
      = .next { s with power := bit, devid := id, applied := true, phase := .test })
    ∧ exec (.inReplyInterval v0 v1 v2 id tail) s
      = .next { s with interval := v, devid := id, applied := true, phase := .test }
    ∧ exec (.inReplyFirmware v0 v1 v2 id tail) s
      = .next { s with fw := ⟨v0, v1, v2⟩, devid := id, applied := true, phase := .test }
    ∧ exec (.inReplyId v0 v1 v2 id tail) s
      = .next { s with devid := id, applied := true, phase := .test }
    ∧ (∀ action, (Instr.inReplyOther action v0 v1 v2 id tail).wf s.params = true →
      exec (.inReplyOther action v0 v1 v2 id tail) s
        = .next { s with devid := id, applied := true, phase := .test })

/-- An `Invalid` frame, for either reason, moves the scanner to TEST and changes nothing else, as
instruction and as the DISCARD micro-step (R127, R165). -/
def Obligations.InvalidFramesAreDiscarded : Prop :=
  (∀ (s : State) (c p0 p1 p2 p3 : Byte) (id : Word16) (k tail : Byte),
    exec (.inBadsum c p0 p1 p2 p3 id k tail) s = .next { s with phase := .test }
    ∧ exec (.inUnknown c p0 p1 p2 p3 id tail) s = .next { s with phase := .test })
  ∧ (∀ s : State, s.blocksTurn = true → s.phase = .discard →
    step s = .next { s.afterTurn with phase := .test })

/-! Outbound rows and command forms. -/

/-- Each command-frame row appends its nineteen bytes to TXQ in index order and enters the delay;
nothing else changes (R141, R61, R143 to R147).
0x01 for true, and the value at byte 4 and the id at bytes 13 and 14 that `Config.params` has, are the
spec's decisions from general knowledge (log 18, PRESUMED); the field `stage` is the model's (log 10), as
is reading a row as stage 2 (log 12). -/
def Obligations.CommandFramesAreSent : Prop :=
  ∀ (s : State) (addr : Word16),
    (s.params.legal = true →
      (∀ passive : Bool, exec (.cmdMode passive addr) s = .next { s with
        txq := s.txq
          ++ commandBytes 2 1 (valueBytes s.params (if passive then 1 else 0)) addr.toNat
        stage := .wait })
      ∧ (∀ newId : Word16, exec (.cmdId newId addr) s = .next { s with
        txq := s.txq ++ commandBytes 5 1 (newIdBytes s.params newId.toNat) addr.toNat
        stage := .wait })
      ∧ (∀ awake : Bool, exec (.cmdState awake addr) s = .next { s with
        txq := s.txq ++ commandBytes 6 1 (valueBytes s.params (if awake then 1 else 0)) addr.toNat
        stage := .wait })
      ∧ (∀ minutes : Byte, exec (.cmdInterval minutes addr) s = .next { s with
        txq := s.txq ++ commandBytes 8 1 (valueBytes s.params minutes) addr.toNat
        stage := .wait }))
    ∧ exec (.cmdQuery addr) s = .next { s with
      txq := s.txq ++ commandBytes 4 0 (List.replicate 11 0) addr.toNat, stage := .wait }
    ∧ (∀ (action : Byte) (set : Bool) (extra : Extra), exec (.cmdAny action set extra addr) s
      = .next { s with
        txq := s.txq ++ commandBytes action (if set then 1 else 0) extra.bytes addr.toNat
        stage := .wait })

/-- SETID on an idle block takes the port and builds its frame, the id at `EXTRA_AT_NEWID` high byte
first and mod 65536, DEVID untouched; BLOCK's next turn appends those bytes to TXQ; a negative id or
address is refused (R143, R140, R103).
That the id stands at bytes 13 and 14 on this hardware is the spec's decision from general knowledge
(log 18, PRESUMED).
The fields `latched` and `stage`, and that acceptance and stage 1 are one step, are the model's choice
(log 10). -/
def Obligations.SetIdBuildsAndSends : Prop :=
  ∀ (s : State) (id : Int) (addr : Option Int), s.Idle →
    let a := addr.getD 0xFFFF
    (0 ≤ id → 0 ≤ a → ∃ f : CmdFrame,
      (s.params.legal = true →
        f.bytes = commandBytes 5 1 (newIdBytes s.params id.toNat) a.toNat)
      ∧ exec (.setId id addr) s = .next
          { s with cmdBusy := true, latched := .setId, stage := .send, tb := f }
      ∧ (s.blocksTurn = true → step
          { s with cmdBusy := true, latched := .setId, stage := .send, tb := f } = .next
          { s.afterTurn with
            cmdBusy := true, latched := .setId, stage := .wait, tb := f
            txq := s.txq ++ f.bytes }))
    ∧ ((id < 0 ∨ a < 0) → exec (.setId id addr) s = .refused .negativeOperand)

/-- SETMODE likewise, with 0x01 for passive and 0x00 for active at `EXTRA_AT_VALUE` (R144).
Byte 4 for that and 0x01 for passive are the spec's decisions from general knowledge (log 18, PRESUMED).
`latched` and `stage` are the model's (log 10). -/
def Obligations.SetModeBuildsAndSends : Prop :=
  ∀ (s : State) (passive : Bool) (addr : Option Int), s.Idle →
    let a := addr.getD 0xFFFF
    (0 ≤ a → ∃ f : CmdFrame,
      (s.params.legal = true →
        f.bytes = commandBytes 2 1 (valueBytes s.params (if passive then 1 else 0)) a.toNat)
      ∧ exec (.setMode passive addr) s = .next
          { s with cmdBusy := true, latched := .setMode, stage := .send, tb := f }
      ∧ (s.blocksTurn = true → step
          { s with cmdBusy := true, latched := .setMode, stage := .send, tb := f } = .next
          { s.afterTurn with
            cmdBusy := true, latched := .setMode, stage := .wait, tb := f
            txq := s.txq ++ f.bytes }))
    ∧ (a < 0 → exec (.setMode passive addr) s = .refused .negativeOperand)

/-- SETSTATE likewise, with 0x01 for awake and 0x00 for sleep at `EXTRA_AT_VALUE` (R145).
Byte 4 for that and 0x01 for awake are the spec's decisions from general knowledge (log 18, PRESUMED).
`latched` and `stage` are the model's (log 10). -/
def Obligations.SetStateBuildsAndSends : Prop :=
  ∀ (s : State) (awake : Bool) (addr : Option Int), s.Idle →
    let a := addr.getD 0xFFFF
    (0 ≤ a → ∃ f : CmdFrame,
      (s.params.legal = true →
        f.bytes = commandBytes 6 1 (valueBytes s.params (if awake then 1 else 0)) a.toNat)
      ∧ exec (.setState awake addr) s = .next
          { s with cmdBusy := true, latched := .setState, stage := .send, tb := f }
      ∧ (s.blocksTurn = true → step
          { s with cmdBusy := true, latched := .setState, stage := .send, tb := f } = .next
          { s.afterTurn with
            cmdBusy := true, latched := .setState, stage := .wait, tb := f
            txq := s.txq ++ f.bytes }))
    ∧ (a < 0 → exec (.setState awake addr) s = .refused .negativeOperand)

/-- SETINTERVAL likewise, with the minutes clamped to [0,30] at `EXTRA_AT_VALUE`: negative values to 0,
values above 30 to 30 (R146); the INTERVAL register is not written (R149).
That the minutes stand at byte 4 on this hardware is the spec's decision from general knowledge (log 18, PRESUMED).
`latched` and `stage` are the model's (log 10). -/
def Obligations.SetIntervalClampsAndSends : Prop :=
  ∀ (s : State) (minutes : Int) (addr : Option Int), s.Idle →
    let a := addr.getD 0xFFFF
    let m : Nat := if minutes < 0 then 0 else if minutes > 30 then 30 else minutes.toNat
    (0 ≤ a → ∃ f : CmdFrame,
      (s.params.legal = true →
        f.bytes = commandBytes 8 1 (valueBytes s.params (BitVec.ofNat 8 m)) a.toNat)
      ∧ exec (.setInterval minutes addr) s = .next
          { s with cmdBusy := true, latched := .setInterval, stage := .send, tb := f }
      ∧ (s.blocksTurn = true → step
          { s with cmdBusy := true, latched := .setInterval, stage := .send, tb := f } = .next
          { s.afterTurn with
            cmdBusy := true, latched := .setInterval, stage := .wait, tb := f
            txq := s.txq ++ f.bytes }))
    ∧ (a < 0 → exec (.setInterval minutes addr) s = .refused .negativeOperand)

/-- QUERY likewise, with the set flag 0 and all extra bytes 0 (R147).
`latched` and `stage` are the model's (log 10). -/
def Obligations.QueryBuildsAndSends : Prop :=
  ∀ (s : State) (addr : Option Int), s.Idle →
    let a := addr.getD 0xFFFF
    (0 ≤ a → ∃ f : CmdFrame,
      f.bytes = commandBytes 4 0 (List.replicate 11 0) a.toNat
      ∧ exec (.query addr) s = .next
          { s with cmdBusy := true, latched := .query, stage := .send, tb := f }
      ∧ (s.blocksTurn = true → step
          { s with cmdBusy := true, latched := .query, stage := .send, tb := f } = .next
          { s.afterTurn with
            cmdBusy := true, latched := .query, stage := .wait, tb := f
            txq := s.txq ++ f.bytes }))
    ∧ (a < 0 → exec (.query addr) s = .refused .negativeOperand)

/-- Stage 2, for every content of `TB`: its nineteen bytes are appended to TXQ in one step, and the
form enters its delay (R141).
`stage` is the model's (log 10); so is writing a `TB` that holds no frame (log 19). -/
def Obligations.StageTwoWritesTb : Prop :=
  ∀ s : State, s.blocksTurn = true → s.phase = .idle → s.cmdBusy = true → s.stage = .send →
    step s = .next { s.afterTurn with txq := s.txq ++ s.tb.bytes, stage := .wait }

/-- Stage 3: LINK_RX and LINK_TX may take any finite number of steps in the delay; the bytes that arrive
are in RXQ, in order, when stage 4 starts the DRAIN on BLOCK's next turn (R142, R120).
That the delay is the turns of the schedule before BLOCK's next (logs 5, 20), that each LINK_TX turn
removes one byte (log 28), or none from an empty TXQ (log 16), the record of sent bytes (log 27) and the
field `stage` (log 10) are the model's choice. -/
def Obligations.DelayAdmitsArrivals : Prop :=
  ∀ (s : State) (ts : List Turn), s.phase = .idle → s.cmdBusy = true → s.stage = .wait →
    (∀ turn ∈ ts, turn = .tx ∨ ∃ b, turn = .rx b) →
    turnsAhead (ts.length + 1) s.agenda s.later = ts ++ [.block] →
    runFor (ts.length + 1) s = .next { s.afterTurns (ts.length + 1) with
      rxq := s.rxq ++ arrivals ts
      txq := s.txq.drop (ts.count .tx)
      sent := s.sent ++ s.txq.take (ts.count .tx)
      applied := false, phase := .test }

/-! Accessors. -/

/-- The four accessors of registers with a reset value, whole: each returns its register, writes
nothing, and returns the reset value after reset (R150 to R153). -/
def Obligations.AccessorsReturnTheirRegister : Prop :=
  (∀ s : State, s.Idle →
    exec .rdDevid s = .next { s with completions := s.completions ++ [⟨.rdDevid, .u16 s.devid⟩] }
    ∧ (∃ b, (b = true ↔ s.mode = 1#1) ∧ exec .rdMode s
      = .next { s with completions := s.completions ++ [⟨.rdMode, .bit b⟩] })
    ∧ (∃ b, (b = true ↔ s.power = 1#1) ∧ exec .rdPower s
      = .next { s with completions := s.completions ++ [⟨.rdPower, .bit b⟩] })
    ∧ exec .rdInterval s
      = .next { s with completions := s.completions ++ [⟨.rdInterval, .u8 s.interval⟩] })
  ∧ State.reset.devid = 0xFFFF ∧ State.reset.mode ≠ 1#1 ∧ State.reset.power = 1#1
  ∧ State.reset.interval = 0

/-- The two accessors of readings return the exact rational raw/10, in the range 0.0 to 6553.5, and
write nothing; after reset both registers hold a free draw (R154, R155, R115, R26).
The draws are the form the model gives to "unspecified" (log 3); that the result is the raw count, with
`tenthsValue` its value, is deduced from R115 (log 21). -/
def Obligations.ReadingsAreTenths : Prop :=
  State.reset.pm25 = Config.resetPm25 0 ∧ State.reset.pm10 = Config.resetPm10 0 ∧ ∀ s : State, s.Idle →
    (∃ raw, tenthsValue raw * 10 = (s.pm25.toNat : Rat) ∧ 0 ≤ tenthsValue raw
      ∧ tenthsValue raw ≤ 65535 / 10 ∧ exec .rdPm25 s
        = .next { s with completions := s.completions ++ [⟨.rdPm25, .tenths raw⟩] })
    ∧ (∃ raw, tenthsValue raw * 10 = (s.pm10.toNat : Rat) ∧ 0 ≤ tenthsValue raw
      ∧ tenthsValue raw ≤ 65535 / 10 ∧ exec .rdPm10 s
        = .next { s with completions := s.completions ++ [⟨.rdPm10, .tenths raw⟩] })

/-! Port OP and the step. -/

/-- A request made while the block is busy is held: neither refused nor faulted, and nothing else
happens (R8, R12, R156).
Where the request is held is the model's choice (log 9). -/
def Obligations.BusyPortHoldsRequests : Prop :=
  ∀ (i : Instr) (r : OpRequest) (s : State), encode s.params i = .op r → ¬ s.Idle →
    exec i s = .next { s with held := s.held ++ [r] }

/-- An idle block serves exactly one of the held requests, which one nothing says, and keeps the
others in their order; a request that fits no operation's syntax is refused (R8, R184, R12).
The draw that chooses, and the refusal, are the model's (logs 6, 8). -/
def Obligations.IdlePortServesOneRequest : Prop :=
  ∀ s : State, s.blocksTurn = true → s.Idle → s.held ≠ [] →
    ∃ before r after, s.held = before ++ r :: after
      ∧ step s = match decodeRequest r with
        | .ok i => exec i { s.afterTurn with held := before ++ after, draws := s.draws + 1 }
        | .error _ => .refused .malformedRequest

/-- An idle block with no request waits: its turn changes nothing (R182).
That waiting is a step that changes nothing is the model's choice (log 16). -/
def Obligations.IdleBlockWaits : Prop :=
  ∀ s : State, s.blocksTurn = true → s.Idle → s.held = [] → step s = .next s.afterTurn

/-- Every instruction, well formed, answers a next state from every state: nothing is ever raised and
ordinary data never ends a run (R160, R168). -/
def Obligations.WellFormedInstructionsComplete : Prop :=
  ∀ (i : Instr) (s : State), i.wf s.params = true → ∃ t, exec i s = .next t

/-- On an idle block an operation is refused exactly when an operand lies outside its stated domain
(R12, R90, R92, R103). -/
def Obligations.OnlyDomainErrorsAreRefused : Prop :=
  ∀ (i : Instr) (r : OpRequest) (s : State), encode s.params i = .op r → s.Idle →
    (i.wf s.params = false ↔
      exec i s = .refused .indexOutsideBuffer ∨ exec i s = .refused .negativeOperand)

/-- A step on BLOCK's turn runs the instruction decoded from the bytes where BLOCK takes it: `FB` at
APPLY and at DISCARD, `TB` at stage 2 of a command form, the served request at an idle port, with the
turn taken off the schedule (R126, R127, R141, R8).
Reading these three places as instructions, and the schedule, are the model's choice (logs 5, 12, 13). -/
def Obligations.StepRunsTheDecodedInstruction : Prop :=
  ∀ (s : State) (i : Instr), s.blocksTurn = true → s.Inv →
    ((s.phase = .apply ∨ s.phase = .discard) → decodeBytes s.params s.fb.bytes = .ok i →
      step s = exec i s.afterTurn)
    ∧ (s.phase = .idle → s.cmdBusy = true → s.stage = .send →
      decodeBytes s.params s.tb.bytes = .ok i →
      step s = exec i s.afterTurn)
    ∧ (∀ r, s.Idle → s.held = [r] → decode s.params (.op r) = .ok i →
      step s = exec i { s.afterTurn with held := [], draws := s.draws + 1 })

/-! The environment and RESET. -/

/-- The turns come from the schedule, the listed ones first; LINK_RX appends one byte, LINK_TX removes
one byte from the head if there is one, HOST's request waits at the port; none has another effect on the
block (R7, R33, R34, R8).
That a turn of LINK_TX removes one byte, where R34 says bytes, is the model's choice (log 28).
The schedule as data (log 5), a request held first even at an idle port, where R8 accepts it on BLOCK's
next turn (log 9), the LINK_TX turn on an empty TXQ (log 16), the record of sent bytes (log 27) and that
held requests and the schedule stay over a RESET (log 15) are the model's choice. -/
def Obligations.EnvironmentTurns : Prop :=
  (∀ (s : State) (turn : Turn) (rest : List Turn), s.agenda = turn :: rest →
    s.turn = turn ∧ s.afterTurn = { s with agenda := rest })
  ∧ (∀ s : State, s.agenda = [] →
    (s.later = .block → s.turn = .block ∧ s.afterTurn = s)
    ∧ (∀ first rest, s.later = .cycle first rest →
      s.turn = first ∧ s.afterTurn = { s with agenda := rest })
    ∧ (∀ k, s.later = .free k →
      s.turn = Config.freeTurn k ∧ s.afterTurn = { s with later := .free (k + 1) }))
  ∧ ∀ s : State,
    (∀ b, s.turn = .rx b → step s = .next { s.afterTurn with rxq := s.rxq ++ [b] })
    ∧ (∀ b q, s.turn = .tx → s.txq = b :: q →
      step s = .next { s.afterTurn with txq := q, sent := s.sent ++ [b] })
    ∧ (s.turn = .tx → s.txq = [] → step s = .next s.afterTurn)
    ∧ (∀ r, s.turn = .host r → step s = .next { s.afterTurn with held := s.held ++ [r] })
    ∧ (s.turn = .reset → ∃ t, step s = .next t ∧ t.held = s.held
      ∧ t.agenda = s.afterTurn.agenda ∧ t.later = s.afterTurn.later)

/-- RESET, from any state, in one step: the block-owned elements take the values R36 states, each
unspecified one a free value drawn at this reset, an operation in progress is abandoned without
completing, RXQ and TXQ are not touched (R36, R180).
That FB, TB, PM25 and PM10 are drawn by the counter `draws` is the form the model gives to "unspecified"
(logs 3, 4); that the list of completions, and of sent bytes, stays over a RESET is its choice (logs 11,
27). -/
def Obligations.ResetEvent : Prop :=
  ∀ s : State, s.turn = .reset →
    ∃ t, step s = .next t
      ∧ t.devid = 0xFFFF ∧ t.mode = 0 ∧ t.power = 1 ∧ t.interval = 0
      ∧ t.fw = s.params.fwReset
      ∧ t.pm25 = Config.resetPm25 s.draws ∧ t.pm10 = Config.resetPm10 s.draws
      ∧ t.fb.bytes = (List.range 10).map (Config.resetFb s.draws)
      ∧ t.tb.bytes = (List.range 19).map (Config.resetTb s.draws)
      ∧ t.applied = false ∧ t.phase = .idle ∧ t.cmdBusy = false
      ∧ t.rxq = s.rxq ∧ t.txq = s.txq ∧ t.sent = s.sent ∧ t.completions = s.completions

/-- The state right after reset: the values R36 states, `FW` with the OPEN parameter `FW_RESET` (log 2);
the block is idle (R36, R182). -/
def Obligations.ResetValues : Prop :=
  State.reset.devid = 0xFFFF ∧ State.reset.mode = 0 ∧ State.reset.power = 1
  ∧ State.reset.interval = 0
  ∧ State.reset.fw = ⟨Config.fwReset 0, Config.fwReset 1, Config.fwReset 2⟩
  ∧ State.reset.applied = false ∧ State.reset.phase = .idle ∧ State.reset.cmdBusy = false
  ∧ State.reset.Idle

/-! Rules of the whole machine. -/

/-- The invariant holds right after reset, at this hardware's parameters and at every legal value of
them. -/
def Obligations.InvariantHoldsAtReset : Prop :=
  State.reset.Inv ∧ ∀ c : Params, c.legal = true → (State.resetAt c).Inv

/-- Every step keeps the invariant: READ finds ten bytes behind a 0xAA, a candidate begins with 0xAA,
APPLY meets only valid frames and DISCARD only invalid ones, `TB` holds a command form's frame until
it is written, a command form drains only after it was written, `cmd_busy` is up only for a command form,
and the parameters stay legal (R53, R77, R117, R123 to R125, R140, R6).
The clauses on `stage` and `latched` are about the model's own fields (log 10). -/
def Obligations.InvariantIsKeptByEveryStep : Prop :=
  ∀ s t : State, s.Inv → step s = .next t → t.Inv

/-- Only APPLY and RESET change a result register: no accessor, no command form, no other micro-step
and no environment turn does (R20, R31, R136, R149). -/
def Obligations.OnlyApplyWritesResultRegisters : Prop :=
  ∀ s t : State, step s = .next t → t.results ≠ s.results →
    (s.blocksTurn = true ∧ s.phase = .apply) ∨ s.turn = .reset

/-- The flag `applied` is set only by APPLY and cleared only at the start of a DRAIN, which an idle
phase precedes, and by RESET (R24). -/
def Obligations.AppliedFlagRule : Prop :=
  ∀ s t : State, step s = .next t → t.applied ≠ s.applied →
    (t.applied = true ∧ s.blocksTurn = true ∧ s.phase = .apply)
    ∨ (t.applied = false ∧ t.phase = .test ∧ s.blocksTurn = true ∧ s.phase = .idle)
    ∨ (t.applied = false ∧ s.turn = .reset)

/-- RXQ is first-in first-out: LINK_RX appends one byte at the tail; BLOCK drops one byte that is not
0xAA in SCAN or takes ten in READ, always from the head; nothing else touches it (R33, R47, R49). -/
def Obligations.RxqIsFirstInFirstOut : Prop :=
  ∀ s t : State, step s = .next t →
    t.rxq = s.rxq
    ∨ (∃ b, s.turn = .rx b ∧ t.rxq = s.rxq ++ [b])
    ∨ (s.blocksTurn = true ∧ s.phase = .scan ∧ ∃ b, b ≠ 0xAA ∧ s.rxq = b :: t.rxq)
    ∨ (s.blocksTurn = true ∧ s.phase = .read ∧ s.rxq = t.fb.bytes ++ t.rxq)

/-- TXQ is first-in first-out: it grows only by the nineteen bytes of `TB` at stage 2 of a command
form, at the tail, and shrinks only by LINK_TX, at the head (R34, R48, R49).
That a LINK_TX turn removes exactly one byte is the model's choice (log 28); the field `stage` is the
model's (log 10). -/
def Obligations.TxqIsFirstInFirstOut : Prop :=
  ∀ s t : State, step s = .next t →
    t.txq = s.txq
    ∨ (s.blocksTurn = true ∧ s.phase = .idle ∧ s.cmdBusy = true ∧ s.stage = .send
        ∧ t.txq = s.txq ++ s.tb.bytes)
    ∨ (s.turn = .tx ∧ ∃ b, s.txq = b :: t.txq)

/-- Nothing is refused but a request at an idle port that is malformed or outside its operation's
domain; in particular the scanner never calls the transport outside its precondition (R12, R53,
R160).
Refusing is R12's; the refusals' names are the model's (logs 8, 17). -/
def Obligations.OnlyRequestsAreRefused : Prop :=
  ∀ (s : State) (e : Refusal), s.Inv → step s = .refused e →
    s.blocksTurn = true ∧ s.Idle ∧ ∃ r ∈ s.held,
      (∃ d, decodeRequest r = .error d) ∨ ∃ i, decodeRequest r = .ok i ∧ i.wf s.params = false

/-- Segmentation is a function of the byte stream alone: under every schedule of turns, and however many
of the turns to come are looked at, a step leaves the candidates of the stream still to pass as they
were, except that READ takes exactly the first of them into `FB` (R132).
The turns to come are the model's schedule (log 5). -/
def Obligations.SegmentationIsScheduleFree : Prop :=
  ∀ (n : Nat) (s t : State), s.Inv → step s = .next t →
    seg (s.stream (n + 1))
      = (if s.blocksTurn = true ∧ s.phase = .read then [t.fb] else []) ++ seg (t.stream n)

/-- A DRAIN without arrivals, from its first TEST: it completes within the bound of R133; every frame
of the segmentation of RXQ is applied or discarded in stream order; the result is whether one was
applied; what remains in RXQ is the rest after the last frame or head (R130, R131, R133, R137).
That `cmd_busy` falls, and the command form whose last stage it is completes, in the step that ends the
DRAIN, and that `latched` names the operation, are the model's choice (log 10; R140).
"quiet" says that every turn to come is BLOCK's (log 5). -/
def Obligations.DrainRunsToCompletion : Prop :=
  ∀ s : State, s.quiet → s.phase = .test →
    let u := applyFrames s (seg s.rxq)
    ∃ k, k ≤ s.rxq.length + 6 * (s.rxq.length / 10 + 1)
      ∧ runFor k s = .next { u with
        phase := .idle, cmdBusy := false
        fb := (seg s.rxq).getLast?.getD s.fb
        rxq := drainResidue s.rxq
        completions := s.completions ++ [⟨s.latched, .bit u.applied⟩] }

/-- A whole command form without arrivals on an idle block: its frame is appended to TXQ, every frame
of RXQ is applied or discarded in order, the port is free again and the result is the DRAIN stage's
bit (R140, R148).
Every turn is BLOCK's, so the delay is empty; where the value and id bytes stand is log 18; `stage` and
`latched` are the model's (logs 5, 10, 20). -/
def Obligations.CommandFormRunsItsFourStages : Prop :=
  ∀ (s : State) (i : Instr) (r : OpRequest), s.quiet → s.Idle → i.wf s.params = true →
    encode s.params i = .op r → isFormName r.name = true →
    ∃ f : CmdFrame, (s.params.legal = true → holdsFormFrame s.params f = true) ∧
      let u := applyFrames { s with applied := false } (seg s.rxq)
      ∃ t k, exec i s = .next t ∧ t.tb = f
        ∧ runFor k t = .next { u with
          phase := .idle, cmdBusy := false
          fb := (seg s.rxq).getLast?.getD s.fb
          tb := f
          rxq := drainResidue s.rxq
          txq := s.txq ++ f.bytes
          stage := .wait
          latched := r.name
          completions := s.completions ++ [⟨r.name, .bit u.applied⟩] }

/-- A DRAIN started with fewer than ten bytes in RXQ and no arrivals consumes nothing, changes no
register and returns false; only the flag and the model's own `latched`, log 10, change besides
(R134). "No arrivals" is that BLOCK has the schedule's next turn (log 5). -/
def Obligations.DrainBelowTenBytesDoesNothing : Prop :=
  ∀ s : State, s.blocksTurn = true → s.Idle → s.rxq.length < 10 →
    ∃ t u, exec .drain s = .next t ∧ step t = .next u
      ∧ u = { s.afterTurn with
        applied := false, latched := u.latched
        completions := s.completions ++ [⟨.drain, .bit false⟩] }

/-- A frame whose parse is `Invalid` changes nothing but RXQ and `FB`: from READ back to TEST (R136,
R165). Every turn is BLOCK's (log 5). -/
def Obligations.InvalidFrameChangesOnlyRxqAndFb : Prop :=
  ∀ (s : State) (f : InFrame), s.quiet → s.phase = .read → f.bytes = s.rxq.take 10 →
    isInvalid (parse s.params.pmOrder f) = true →
    runFor 3 s
      = .next { s with fb := f, rxq := s.rxq.drop 10, phase := .test }

/-! Parameters, the observer and the environment. -/

/-- The parameters of R6 are arguments of the whole machine: reset takes them, with `FW` at `FW_RESET`
(R30, R36), and no step changes them. At every legal value a Reply is latched from the value byte that
`REPLY_VALUE_SEL` names, the firmware by `ACT_FIRMWARE` (R128), and the value byte and the new id stand in
the extra region where `EXTRA_AT_VALUE` and `EXTRA_AT_NEWID` say, all other extra bytes 0 (R143 to R146).
The last clause has the values of log 18 (PRESUMED); that the state carries the parameters along is the
model's choice (log 29). -/
def Obligations.ParametersAreArguments : Prop :=
  (∀ c : Params, (State.resetAt c).params = c ∧ (State.resetAt c).fw = c.fwReset)
  ∧ (∀ s t : State, step s = .next t → t.params = s.params)
  ∧ (∀ c : Params, c.legal = true →
    (∀ (s : State) (action v0 v1 v2 : Byte) (id : Word16),
      let v := selectedValue c v0 v1 v2
      let t := { s with devid := id, applied := true, phase := .test }
      let u := applyResult c (.replyAck action v0 v1 v2 id) s
      (action = 2 → ∃ bit, (bit = 1#1 ↔ v.toNat % 2 = 1) ∧ u = { t with mode := bit })
      ∧ (action = 6 → ∃ bit, (bit = 1#1 ↔ v.toNat % 2 = 1) ∧ u = { t with power := bit })
      ∧ (action = 8 → u = { t with interval := v })
      ∧ (action = c.actFirmware → u = { t with fw := ⟨v0, v1, v2⟩ })
      ∧ (action ≠ 2 → action ≠ 6 → action ≠ 8 → action ≠ c.actFirmware → u = t))
    ∧ (∀ (v hi lo : Byte) (k : Nat), k < 11 →
      (valueExtra c v).bytes[k]? = some (if k + 4 = c.extraAtValue then v else 0)
      ∧ (newIdExtra c hi lo).bytes[k]? = some (if k + 4 = c.extraAtNewIdHi then hi
        else if k + 4 = c.extraAtNewIdLo then lo else 0)))
  ∧ State.reset.params.actFirmware = 7
  ∧ (∀ v0 v1 v2 : Byte, selectedValue State.reset.params v0 v1 v2 = v1)
  ∧ (∀ v : Byte, valueBytes State.reset.params v = v :: List.replicate 10 0)
  ∧ (∀ id : Nat, newIdBytes State.reset.params id
      = List.replicate 9 0 ++ [BitVec.ofNat 8 (id / 256), BitVec.ofNat 8 id])

/-- The sequence of bytes appended to TXQ, which the observer sees whole, grows by the nineteen bytes of
`TB` at stage 2 of a command form and by nothing else; what LINK_TX takes away stays in it, and so it
does over a RESET (R9, R34, R141).
The record of the bytes taken, and the field `stage`, are the model's (logs 27, 10). -/
def Obligations.WrittenSequenceGrowsAtStageTwo : Prop :=
  ∀ s t : State, step s = .next t →
    t.observe.written = s.observe.written ++
      (if s.blocksTurn = true ∧ s.phase = .idle ∧ s.cmdBusy = true ∧ s.stage = .send
        then s.tb.bytes else [])

/-- A run that is over stays over: when every operation the host issued has completed and it issues no
other, each turn leads to a next state in which the run is over, no result is added, nothing is written,
and no result register changes unless by a RESET (R9, R196, R182).
That this is read from the schedule is the model's (log 5). -/
def Obligations.RunThatIsOverStaysOver : Prop :=
  ∀ s : State, s.runOver → ∃ t, step s = .next t ∧ t.runOver
    ∧ t.observe.results = s.observe.results ∧ t.observe.written = s.observe.written
    ∧ (s.turn ≠ .reset → t.results = s.results)

/-- `FB` and `TB` are observable only through the results, the bytes written and RXQ: whatever stands in
`FB` while no candidate is being judged, and in `TB` while no frame waits to be written, no run of any
length under any schedule shows the observer a difference, nor is a request refused in one and not in
the other (R9, R35).
The field `stage` is the model's (log 10). -/
def Obligations.BuffersAreNotObservable : Prop :=
  ∀ (n : Nat) (s : State) (f : InFrame) (g : CmdFrame),
    (s.phase = .valid ∨ s.phase = .apply ∨ s.phase = .discard → f = s.fb) →
    (s.phase = .idle → s.cmdBusy = true → s.stage = .send → g = s.tb) →
    match runFor n s, runFor n { s with fb := f, tb := g } with
    | .next t, .next u => t.observe = u.observe
    | .refused d, .refused e => d = e
    | _, _ => False

/-- Under R194's liveness assumption every operation completes: whatever phase a DRAIN or command form
is in, if LINK_RX takes finitely many steps, BLOCK is served again and again and no RESET comes, a
number of steps leads to an idle block with exactly its completion added (R133, R194, R8).
The assumption is said of the model's schedule (logs 5, 20); `latched` is the model's (log 10). -/
def Obligations.OperationsCompleteWhenArrivalsEnd : Prop :=
  ∀ s : State, s.Inv → ¬ s.Idle → envSettles s.agenda s.later = true →
    ∃ k t, runFor k s = .next t ∧ t.Idle
      ∧ t.completions = s.completions ++ [⟨s.latched, .bit t.applied⟩]

/-- Without that assumption a DRAIN need not complete: with LINK_RX appending a byte that is not 0xAA
before each turn of BLOCK for ever, the scanner is in SCAN after every number of steps and nothing
completes (R133).
The unending schedule is the model's data (log 5). -/
def Obligations.UnendingArrivalsHoldADrain : Prop :=
  ∀ (n : Nat) (s : State) (b : Byte), b ≠ 0xAA → s.phase = .scan →
    (∀ x ∈ s.rxq, x ≠ 0xAA) → s.agenda = [] → s.later = .cycle (.rx b) [.block] →
    ∃ t, runFor n s = .next t ∧ t.phase = .scan ∧ t.completions = s.completions
end

