-- ==== Sys2Proof/Laws/State.lean ====
section
/-! SUPPORT. For each named update of the state, what it makes of each field (true by rfl), so that no
proof unfolds a record update. -/

namespace Sys2Proof.Machine

/-! The parameters of this hardware (00_scope.md R6). -/

@[simp] theorem params_pmOrder : Config.params.pmOrder = Config.pmOrder := rfl
@[simp] theorem params_actFirmware : Config.params.actFirmware = 0x07#8 := rfl
@[simp] theorem params_fwReset :
    Config.params.fwReset = ⟨Config.fwReset 0, Config.fwReset 1, Config.fwReset 2⟩ := rfl
theorem params_extraAtValue : Config.params.extraAtValue = 4 := rfl
theorem params_extraAtNewIdHi : Config.params.extraAtNewIdHi = 13 := rfl
theorem params_extraAtNewIdLo : Config.params.extraAtNewIdLo = 14 := rfl
@[simp] theorem params_replyValueSel : Config.params.replyValueSel = 1 := rfl
@[simp] theorem params_legal : Config.params.legal = true := rfl

@[simp] theorem resetAt_params (c : Params) : (State.resetAt c).params = c := rfl
@[simp] theorem resetAt_fw (c : Params) : (State.resetAt c).fw = c.fwReset := rfl
@[simp] theorem reset_params : State.reset.params = Config.params := rfl
theorem machineAt_params : machineAt Config.params = Sys2Proof.core := rfl

/-! The schedule (R7; log 5). -/

@[simp] theorem nextTurn_cons (turn : Turn) (rest : List Turn) (later : Later) :
    nextTurn (turn :: rest) later = (turn, rest, later) := rfl
@[simp] theorem nextTurn_block : nextTurn [] .block = (.block, [], .block) := rfl
@[simp] theorem nextTurn_cycle (first : Turn) (rest : List Turn) :
    nextTurn [] (.cycle first rest) = (first, rest, .cycle first rest) := rfl
@[simp] theorem nextTurn_free (k : Nat) :
    nextTurn [] (.free k) = (Config.freeTurn k, [], .free (k + 1)) := rfl
@[simp] theorem turnsAhead_zero (agenda : List Turn) (later : Later) :
    turnsAhead 0 agenda later = [] := rfl
@[simp] theorem afterTurns_zero (s : State) : State.afterTurns 0 s = s := rfl

/-! The named updates. -/

@[simp] theorem clearApplied_params (s : State) : (clearApplied s).params = s.params := rfl
@[simp] theorem clearApplied_fb (s : State) : (clearApplied s).fb = s.fb := rfl
@[simp] theorem clearApplied_tb (s : State) : (clearApplied s).tb = s.tb := rfl
@[simp] theorem clearApplied_phase (s : State) : (clearApplied s).phase = s.phase := rfl
@[simp] theorem clearApplied_cmdBusy (s : State) : (clearApplied s).cmdBusy = s.cmdBusy := rfl
@[simp] theorem clearApplied_applied (s : State) : (clearApplied s).applied = false := rfl
@[simp] theorem clearApplied_devid (s : State) : (clearApplied s).devid = s.devid := rfl
@[simp] theorem clearApplied_pm25 (s : State) : (clearApplied s).pm25 = s.pm25 := rfl
@[simp] theorem clearApplied_pm10 (s : State) : (clearApplied s).pm10 = s.pm10 := rfl
@[simp] theorem clearApplied_mode (s : State) : (clearApplied s).mode = s.mode := rfl
@[simp] theorem clearApplied_power (s : State) : (clearApplied s).power = s.power := rfl
@[simp] theorem clearApplied_interval (s : State) : (clearApplied s).interval = s.interval := rfl
@[simp] theorem clearApplied_fw (s : State) : (clearApplied s).fw = s.fw := rfl
@[simp] theorem clearApplied_rxq (s : State) : (clearApplied s).rxq = s.rxq := rfl
@[simp] theorem clearApplied_txq (s : State) : (clearApplied s).txq = s.txq := rfl
@[simp] theorem clearApplied_stage (s : State) : (clearApplied s).stage = s.stage := rfl
@[simp] theorem clearApplied_latched (s : State) : (clearApplied s).latched = s.latched := rfl
@[simp] theorem clearApplied_held (s : State) : (clearApplied s).held = s.held := rfl
@[simp] theorem clearApplied_completions (s : State) :
    (clearApplied s).completions = s.completions := rfl
@[simp] theorem clearApplied_sent (s : State) : (clearApplied s).sent = s.sent := rfl
@[simp] theorem clearApplied_agenda (s : State) : (clearApplied s).agenda = s.agenda := rfl
@[simp] theorem clearApplied_later (s : State) : (clearApplied s).later = s.later := rfl
@[simp] theorem clearApplied_draws (s : State) : (clearApplied s).draws = s.draws := rfl

@[simp] theorem setApplied_params (s : State) : (setApplied s).params = s.params := rfl
@[simp] theorem setApplied_fb (s : State) : (setApplied s).fb = s.fb := rfl
@[simp] theorem setApplied_tb (s : State) : (setApplied s).tb = s.tb := rfl
@[simp] theorem setApplied_phase (s : State) : (setApplied s).phase = s.phase := rfl
@[simp] theorem setApplied_cmdBusy (s : State) : (setApplied s).cmdBusy = s.cmdBusy := rfl
@[simp] theorem setApplied_applied (s : State) : (setApplied s).applied = true := rfl
@[simp] theorem setApplied_devid (s : State) : (setApplied s).devid = s.devid := rfl
@[simp] theorem setApplied_pm25 (s : State) : (setApplied s).pm25 = s.pm25 := rfl
@[simp] theorem setApplied_pm10 (s : State) : (setApplied s).pm10 = s.pm10 := rfl
@[simp] theorem setApplied_mode (s : State) : (setApplied s).mode = s.mode := rfl
@[simp] theorem setApplied_power (s : State) : (setApplied s).power = s.power := rfl
@[simp] theorem setApplied_interval (s : State) : (setApplied s).interval = s.interval := rfl
@[simp] theorem setApplied_fw (s : State) : (setApplied s).fw = s.fw := rfl
@[simp] theorem setApplied_rxq (s : State) : (setApplied s).rxq = s.rxq := rfl
@[simp] theorem setApplied_txq (s : State) : (setApplied s).txq = s.txq := rfl
@[simp] theorem setApplied_stage (s : State) : (setApplied s).stage = s.stage := rfl
@[simp] theorem setApplied_latched (s : State) : (setApplied s).latched = s.latched := rfl
@[simp] theorem setApplied_held (s : State) : (setApplied s).held = s.held := rfl
@[simp] theorem setApplied_completions (s : State) :
    (setApplied s).completions = s.completions := rfl
@[simp] theorem setApplied_sent (s : State) : (setApplied s).sent = s.sent := rfl
@[simp] theorem setApplied_agenda (s : State) : (setApplied s).agenda = s.agenda := rfl
@[simp] theorem setApplied_later (s : State) : (setApplied s).later = s.later := rfl
@[simp] theorem setApplied_draws (s : State) : (setApplied s).draws = s.draws := rfl

@[simp] theorem tpDiscard_params (s : State) : (tpDiscard s).params = s.params := rfl
@[simp] theorem tpDiscard_fb (s : State) : (tpDiscard s).fb = s.fb := rfl
@[simp] theorem tpDiscard_tb (s : State) : (tpDiscard s).tb = s.tb := rfl
@[simp] theorem tpDiscard_phase (s : State) : (tpDiscard s).phase = s.phase := rfl
@[simp] theorem tpDiscard_cmdBusy (s : State) : (tpDiscard s).cmdBusy = s.cmdBusy := rfl
@[simp] theorem tpDiscard_applied (s : State) : (tpDiscard s).applied = s.applied := rfl
@[simp] theorem tpDiscard_devid (s : State) : (tpDiscard s).devid = s.devid := rfl
@[simp] theorem tpDiscard_pm25 (s : State) : (tpDiscard s).pm25 = s.pm25 := rfl
@[simp] theorem tpDiscard_pm10 (s : State) : (tpDiscard s).pm10 = s.pm10 := rfl
@[simp] theorem tpDiscard_mode (s : State) : (tpDiscard s).mode = s.mode := rfl
@[simp] theorem tpDiscard_power (s : State) : (tpDiscard s).power = s.power := rfl
@[simp] theorem tpDiscard_interval (s : State) : (tpDiscard s).interval = s.interval := rfl
@[simp] theorem tpDiscard_fw (s : State) : (tpDiscard s).fw = s.fw := rfl
@[simp] theorem tpDiscard_rxq (s : State) : (tpDiscard s).rxq = s.rxq.tail := rfl
@[simp] theorem tpDiscard_txq (s : State) : (tpDiscard s).txq = s.txq := rfl
@[simp] theorem tpDiscard_stage (s : State) : (tpDiscard s).stage = s.stage := rfl
@[simp] theorem tpDiscard_latched (s : State) : (tpDiscard s).latched = s.latched := rfl
@[simp] theorem tpDiscard_held (s : State) : (tpDiscard s).held = s.held := rfl
@[simp] theorem tpDiscard_completions (s : State) : (tpDiscard s).completions = s.completions := rfl
@[simp] theorem tpDiscard_sent (s : State) : (tpDiscard s).sent = s.sent := rfl
@[simp] theorem tpDiscard_agenda (s : State) : (tpDiscard s).agenda = s.agenda := rfl
@[simp] theorem tpDiscard_later (s : State) : (tpDiscard s).later = s.later := rfl
@[simp] theorem tpDiscard_draws (s : State) : (tpDiscard s).draws = s.draws := rfl

@[simp] theorem tpWrite_params (f : CmdFrame) (s : State) : (tpWrite f s).params = s.params := rfl
@[simp] theorem tpWrite_fb (f : CmdFrame) (s : State) : (tpWrite f s).fb = s.fb := rfl
@[simp] theorem tpWrite_tb (f : CmdFrame) (s : State) : (tpWrite f s).tb = s.tb := rfl
@[simp] theorem tpWrite_phase (f : CmdFrame) (s : State) : (tpWrite f s).phase = s.phase := rfl
@[simp] theorem tpWrite_cmdBusy (f : CmdFrame) (s : State) :
    (tpWrite f s).cmdBusy = s.cmdBusy := rfl
@[simp] theorem tpWrite_applied (f : CmdFrame) (s : State) :
    (tpWrite f s).applied = s.applied := rfl
@[simp] theorem tpWrite_devid (f : CmdFrame) (s : State) : (tpWrite f s).devid = s.devid := rfl
@[simp] theorem tpWrite_pm25 (f : CmdFrame) (s : State) : (tpWrite f s).pm25 = s.pm25 := rfl
@[simp] theorem tpWrite_pm10 (f : CmdFrame) (s : State) : (tpWrite f s).pm10 = s.pm10 := rfl
@[simp] theorem tpWrite_mode (f : CmdFrame) (s : State) : (tpWrite f s).mode = s.mode := rfl
@[simp] theorem tpWrite_power (f : CmdFrame) (s : State) : (tpWrite f s).power = s.power := rfl
@[simp] theorem tpWrite_interval (f : CmdFrame) (s : State) :
    (tpWrite f s).interval = s.interval := rfl
@[simp] theorem tpWrite_fw (f : CmdFrame) (s : State) : (tpWrite f s).fw = s.fw := rfl
@[simp] theorem tpWrite_rxq (f : CmdFrame) (s : State) : (tpWrite f s).rxq = s.rxq := rfl
@[simp] theorem tpWrite_txq (f : CmdFrame) (s : State) : (tpWrite f s).txq = s.txq ++ f.bytes := rfl
@[simp] theorem tpWrite_stage (f : CmdFrame) (s : State) : (tpWrite f s).stage = s.stage := rfl
@[simp] theorem tpWrite_latched (f : CmdFrame) (s : State) :
    (tpWrite f s).latched = s.latched := rfl
@[simp] theorem tpWrite_held (f : CmdFrame) (s : State) : (tpWrite f s).held = s.held := rfl
@[simp] theorem tpWrite_completions (f : CmdFrame) (s : State) :
    (tpWrite f s).completions = s.completions := rfl
@[simp] theorem tpWrite_sent (f : CmdFrame) (s : State) : (tpWrite f s).sent = s.sent := rfl
@[simp] theorem tpWrite_agenda (f : CmdFrame) (s : State) : (tpWrite f s).agenda = s.agenda := rfl
@[simp] theorem tpWrite_later (f : CmdFrame) (s : State) : (tpWrite f s).later = s.later := rfl
@[simp] theorem tpWrite_draws (f : CmdFrame) (s : State) : (tpWrite f s).draws = s.draws := rfl

@[simp] theorem latchReading_params (p q i : Word16) (s : State) :
    (latchReading p q i s).params = s.params := rfl
@[simp] theorem latchReading_fb (p q i : Word16) (s : State) :
    (latchReading p q i s).fb = s.fb := rfl
@[simp] theorem latchReading_tb (p q i : Word16) (s : State) :
    (latchReading p q i s).tb = s.tb := rfl
@[simp] theorem latchReading_phase (p q i : Word16) (s : State) :
    (latchReading p q i s).phase = s.phase := rfl
@[simp] theorem latchReading_cmdBusy (p q i : Word16) (s : State) :
    (latchReading p q i s).cmdBusy = s.cmdBusy := rfl
@[simp] theorem latchReading_applied (p q i : Word16) (s : State) :
    (latchReading p q i s).applied = s.applied := rfl
@[simp] theorem latchReading_devid (p q i : Word16) (s : State) :
    (latchReading p q i s).devid = i := rfl
@[simp] theorem latchReading_pm25 (p q i : Word16) (s : State) :
    (latchReading p q i s).pm25 = p := rfl
@[simp] theorem latchReading_pm10 (p q i : Word16) (s : State) :
    (latchReading p q i s).pm10 = q := rfl
@[simp] theorem latchReading_mode (p q i : Word16) (s : State) :
    (latchReading p q i s).mode = s.mode := rfl
@[simp] theorem latchReading_power (p q i : Word16) (s : State) :
    (latchReading p q i s).power = s.power := rfl
@[simp] theorem latchReading_interval (p q i : Word16) (s : State) :
    (latchReading p q i s).interval = s.interval := rfl
@[simp] theorem latchReading_fw (p q i : Word16) (s : State) :
    (latchReading p q i s).fw = s.fw := rfl
@[simp] theorem latchReading_rxq (p q i : Word16) (s : State) :
    (latchReading p q i s).rxq = s.rxq := rfl
@[simp] theorem latchReading_txq (p q i : Word16) (s : State) :
    (latchReading p q i s).txq = s.txq := rfl
@[simp] theorem latchReading_stage (p q i : Word16) (s : State) :
    (latchReading p q i s).stage = s.stage := rfl
@[simp] theorem latchReading_latched (p q i : Word16) (s : State) :
    (latchReading p q i s).latched = s.latched := rfl
@[simp] theorem latchReading_held (p q i : Word16) (s : State) :
    (latchReading p q i s).held = s.held := rfl
@[simp] theorem latchReading_completions (p q i : Word16) (s : State) :
    (latchReading p q i s).completions = s.completions := rfl
@[simp] theorem latchReading_sent (p q i : Word16) (s : State) :
    (latchReading p q i s).sent = s.sent := rfl
@[simp] theorem latchReading_agenda (p q i : Word16) (s : State) :
    (latchReading p q i s).agenda = s.agenda := rfl
@[simp] theorem latchReading_later (p q i : Word16) (s : State) :
    (latchReading p q i s).later = s.later := rfl
@[simp] theorem latchReading_draws (p q i : Word16) (s : State) :
    (latchReading p q i s).draws = s.draws := rfl

@[simp] theorem finishApply_params (s : State) : (finishApply s).params = s.params := rfl
@[simp] theorem finishApply_fb (s : State) : (finishApply s).fb = s.fb := rfl
@[simp] theorem finishApply_tb (s : State) : (finishApply s).tb = s.tb := rfl
@[simp] theorem finishApply_phase (s : State) : (finishApply s).phase = .test := rfl
@[simp] theorem finishApply_cmdBusy (s : State) : (finishApply s).cmdBusy = s.cmdBusy := rfl
@[simp] theorem finishApply_applied (s : State) : (finishApply s).applied = true := rfl
@[simp] theorem finishApply_devid (s : State) : (finishApply s).devid = s.devid := rfl
@[simp] theorem finishApply_pm25 (s : State) : (finishApply s).pm25 = s.pm25 := rfl
@[simp] theorem finishApply_pm10 (s : State) : (finishApply s).pm10 = s.pm10 := rfl
@[simp] theorem finishApply_mode (s : State) : (finishApply s).mode = s.mode := rfl
@[simp] theorem finishApply_power (s : State) : (finishApply s).power = s.power := rfl
@[simp] theorem finishApply_interval (s : State) : (finishApply s).interval = s.interval := rfl
@[simp] theorem finishApply_fw (s : State) : (finishApply s).fw = s.fw := rfl
@[simp] theorem finishApply_rxq (s : State) : (finishApply s).rxq = s.rxq := rfl
@[simp] theorem finishApply_txq (s : State) : (finishApply s).txq = s.txq := rfl
@[simp] theorem finishApply_stage (s : State) : (finishApply s).stage = s.stage := rfl
@[simp] theorem finishApply_latched (s : State) : (finishApply s).latched = s.latched := rfl
@[simp] theorem finishApply_held (s : State) : (finishApply s).held = s.held := rfl
@[simp] theorem finishApply_completions (s : State) :
    (finishApply s).completions = s.completions := rfl
@[simp] theorem finishApply_sent (s : State) : (finishApply s).sent = s.sent := rfl
@[simp] theorem finishApply_agenda (s : State) : (finishApply s).agenda = s.agenda := rfl
@[simp] theorem finishApply_later (s : State) : (finishApply s).later = s.later := rfl
@[simp] theorem finishApply_draws (s : State) : (finishApply s).draws = s.draws := rfl

@[simp] theorem discardFrame_params (s : State) : (discardFrame s).params = s.params := rfl
@[simp] theorem discardFrame_fb (s : State) : (discardFrame s).fb = s.fb := rfl
@[simp] theorem discardFrame_tb (s : State) : (discardFrame s).tb = s.tb := rfl
@[simp] theorem discardFrame_phase (s : State) : (discardFrame s).phase = .test := rfl
@[simp] theorem discardFrame_cmdBusy (s : State) : (discardFrame s).cmdBusy = s.cmdBusy := rfl
@[simp] theorem discardFrame_applied (s : State) : (discardFrame s).applied = s.applied := rfl
@[simp] theorem discardFrame_devid (s : State) : (discardFrame s).devid = s.devid := rfl
@[simp] theorem discardFrame_pm25 (s : State) : (discardFrame s).pm25 = s.pm25 := rfl
@[simp] theorem discardFrame_pm10 (s : State) : (discardFrame s).pm10 = s.pm10 := rfl
@[simp] theorem discardFrame_mode (s : State) : (discardFrame s).mode = s.mode := rfl
@[simp] theorem discardFrame_power (s : State) : (discardFrame s).power = s.power := rfl
@[simp] theorem discardFrame_interval (s : State) : (discardFrame s).interval = s.interval := rfl
@[simp] theorem discardFrame_fw (s : State) : (discardFrame s).fw = s.fw := rfl
@[simp] theorem discardFrame_rxq (s : State) : (discardFrame s).rxq = s.rxq := rfl
@[simp] theorem discardFrame_txq (s : State) : (discardFrame s).txq = s.txq := rfl
@[simp] theorem discardFrame_stage (s : State) : (discardFrame s).stage = s.stage := rfl
@[simp] theorem discardFrame_latched (s : State) : (discardFrame s).latched = s.latched := rfl
@[simp] theorem discardFrame_held (s : State) : (discardFrame s).held = s.held := rfl
@[simp] theorem discardFrame_completions (s : State) :
    (discardFrame s).completions = s.completions := rfl
@[simp] theorem discardFrame_sent (s : State) : (discardFrame s).sent = s.sent := rfl
@[simp] theorem discardFrame_agenda (s : State) : (discardFrame s).agenda = s.agenda := rfl
@[simp] theorem discardFrame_later (s : State) : (discardFrame s).later = s.later := rfl
@[simp] theorem discardFrame_draws (s : State) : (discardFrame s).draws = s.draws := rfl

@[simp] theorem complete_params (n : OpName) (r : Result) (s : State) :
    (complete n r s).params = s.params := rfl
@[simp] theorem complete_fb (n : OpName) (r : Result) (s : State) :
    (complete n r s).fb = s.fb := rfl
@[simp] theorem complete_tb (n : OpName) (r : Result) (s : State) :
    (complete n r s).tb = s.tb := rfl
@[simp] theorem complete_phase (n : OpName) (r : Result) (s : State) :
    (complete n r s).phase = s.phase := rfl
@[simp] theorem complete_cmdBusy (n : OpName) (r : Result) (s : State) :
    (complete n r s).cmdBusy = s.cmdBusy := rfl
@[simp] theorem complete_applied (n : OpName) (r : Result) (s : State) :
    (complete n r s).applied = s.applied := rfl
@[simp] theorem complete_devid (n : OpName) (r : Result) (s : State) :
    (complete n r s).devid = s.devid := rfl
@[simp] theorem complete_pm25 (n : OpName) (r : Result) (s : State) :
    (complete n r s).pm25 = s.pm25 := rfl
@[simp] theorem complete_pm10 (n : OpName) (r : Result) (s : State) :
    (complete n r s).pm10 = s.pm10 := rfl
@[simp] theorem complete_mode (n : OpName) (r : Result) (s : State) :
    (complete n r s).mode = s.mode := rfl
@[simp] theorem complete_power (n : OpName) (r : Result) (s : State) :
    (complete n r s).power = s.power := rfl
@[simp] theorem complete_interval (n : OpName) (r : Result) (s : State) :
    (complete n r s).interval = s.interval := rfl
@[simp] theorem complete_fw (n : OpName) (r : Result) (s : State) :
    (complete n r s).fw = s.fw := rfl
@[simp] theorem complete_rxq (n : OpName) (r : Result) (s : State) :
    (complete n r s).rxq = s.rxq := rfl
@[simp] theorem complete_txq (n : OpName) (r : Result) (s : State) :
    (complete n r s).txq = s.txq := rfl
@[simp] theorem complete_stage (n : OpName) (r : Result) (s : State) :
    (complete n r s).stage = s.stage := rfl
@[simp] theorem complete_latched (n : OpName) (r : Result) (s : State) :
    (complete n r s).latched = s.latched := rfl
@[simp] theorem complete_held (n : OpName) (r : Result) (s : State) :
    (complete n r s).held = s.held := rfl
@[simp] theorem complete_completions (n : OpName) (r : Result) (s : State) :
    (complete n r s).completions = s.completions ++ [⟨n, r⟩] := rfl
@[simp] theorem complete_sent (n : OpName) (r : Result) (s : State) :
    (complete n r s).sent = s.sent := rfl
@[simp] theorem complete_agenda (n : OpName) (r : Result) (s : State) :
    (complete n r s).agenda = s.agenda := rfl
@[simp] theorem complete_later (n : OpName) (r : Result) (s : State) :
    (complete n r s).later = s.later := rfl
@[simp] theorem complete_draws (n : OpName) (r : Result) (s : State) :
    (complete n r s).draws = s.draws := rfl

@[simp] theorem hold_params (i : Instr) (s : State) : (hold i s).params = s.params := rfl
@[simp] theorem hold_fb (i : Instr) (s : State) : (hold i s).fb = s.fb := rfl
@[simp] theorem hold_tb (i : Instr) (s : State) : (hold i s).tb = s.tb := rfl
@[simp] theorem hold_phase (i : Instr) (s : State) : (hold i s).phase = s.phase := rfl
@[simp] theorem hold_cmdBusy (i : Instr) (s : State) : (hold i s).cmdBusy = s.cmdBusy := rfl
@[simp] theorem hold_applied (i : Instr) (s : State) : (hold i s).applied = s.applied := rfl
@[simp] theorem hold_devid (i : Instr) (s : State) : (hold i s).devid = s.devid := rfl
@[simp] theorem hold_pm25 (i : Instr) (s : State) : (hold i s).pm25 = s.pm25 := rfl
@[simp] theorem hold_pm10 (i : Instr) (s : State) : (hold i s).pm10 = s.pm10 := rfl
@[simp] theorem hold_mode (i : Instr) (s : State) : (hold i s).mode = s.mode := rfl
@[simp] theorem hold_power (i : Instr) (s : State) : (hold i s).power = s.power := rfl
@[simp] theorem hold_interval (i : Instr) (s : State) : (hold i s).interval = s.interval := rfl
@[simp] theorem hold_fw (i : Instr) (s : State) : (hold i s).fw = s.fw := rfl
@[simp] theorem hold_rxq (i : Instr) (s : State) : (hold i s).rxq = s.rxq := rfl
@[simp] theorem hold_txq (i : Instr) (s : State) : (hold i s).txq = s.txq := rfl
@[simp] theorem hold_stage (i : Instr) (s : State) : (hold i s).stage = s.stage := rfl
@[simp] theorem hold_latched (i : Instr) (s : State) : (hold i s).latched = s.latched := rfl
@[simp] theorem hold_held (i : Instr) (s : State) :
    (hold i s).held = s.held ++ (encode s.params i).request.toList := rfl
@[simp] theorem hold_completions (i : Instr) (s : State) :
    (hold i s).completions = s.completions := rfl
@[simp] theorem hold_sent (i : Instr) (s : State) : (hold i s).sent = s.sent := rfl
@[simp] theorem hold_agenda (i : Instr) (s : State) : (hold i s).agenda = s.agenda := rfl
@[simp] theorem hold_later (i : Instr) (s : State) : (hold i s).later = s.later := rfl
@[simp] theorem hold_draws (i : Instr) (s : State) : (hold i s).draws = s.draws := rfl

@[simp] theorem startDrain_params (s : State) : (startDrain s).params = s.params := rfl
@[simp] theorem startDrain_fb (s : State) : (startDrain s).fb = s.fb := rfl
@[simp] theorem startDrain_tb (s : State) : (startDrain s).tb = s.tb := rfl
@[simp] theorem startDrain_phase (s : State) : (startDrain s).phase = .test := rfl
@[simp] theorem startDrain_cmdBusy (s : State) : (startDrain s).cmdBusy = s.cmdBusy := rfl
@[simp] theorem startDrain_applied (s : State) : (startDrain s).applied = false := rfl
@[simp] theorem startDrain_devid (s : State) : (startDrain s).devid = s.devid := rfl
@[simp] theorem startDrain_pm25 (s : State) : (startDrain s).pm25 = s.pm25 := rfl
@[simp] theorem startDrain_pm10 (s : State) : (startDrain s).pm10 = s.pm10 := rfl
@[simp] theorem startDrain_mode (s : State) : (startDrain s).mode = s.mode := rfl
@[simp] theorem startDrain_power (s : State) : (startDrain s).power = s.power := rfl
@[simp] theorem startDrain_interval (s : State) : (startDrain s).interval = s.interval := rfl
@[simp] theorem startDrain_fw (s : State) : (startDrain s).fw = s.fw := rfl
@[simp] theorem startDrain_rxq (s : State) : (startDrain s).rxq = s.rxq := rfl
@[simp] theorem startDrain_txq (s : State) : (startDrain s).txq = s.txq := rfl
@[simp] theorem startDrain_stage (s : State) : (startDrain s).stage = s.stage := rfl
@[simp] theorem startDrain_latched (s : State) : (startDrain s).latched = s.latched := rfl
@[simp] theorem startDrain_held (s : State) : (startDrain s).held = s.held := rfl
@[simp] theorem startDrain_completions (s : State) :
    (startDrain s).completions = s.completions := rfl
@[simp] theorem startDrain_sent (s : State) : (startDrain s).sent = s.sent := rfl
@[simp] theorem startDrain_agenda (s : State) : (startDrain s).agenda = s.agenda := rfl
@[simp] theorem startDrain_later (s : State) : (startDrain s).later = s.later := rfl
@[simp] theorem startDrain_draws (s : State) : (startDrain s).draws = s.draws := rfl

@[simp] theorem completeDrain_params (s : State) : (completeDrain s).params = s.params := rfl
@[simp] theorem completeDrain_fb (s : State) : (completeDrain s).fb = s.fb := rfl
@[simp] theorem completeDrain_tb (s : State) : (completeDrain s).tb = s.tb := rfl
@[simp] theorem completeDrain_phase (s : State) : (completeDrain s).phase = .idle := rfl
@[simp] theorem completeDrain_cmdBusy (s : State) : (completeDrain s).cmdBusy = false := rfl
@[simp] theorem completeDrain_applied (s : State) : (completeDrain s).applied = s.applied := rfl
@[simp] theorem completeDrain_devid (s : State) : (completeDrain s).devid = s.devid := rfl
@[simp] theorem completeDrain_pm25 (s : State) : (completeDrain s).pm25 = s.pm25 := rfl
@[simp] theorem completeDrain_pm10 (s : State) : (completeDrain s).pm10 = s.pm10 := rfl
@[simp] theorem completeDrain_mode (s : State) : (completeDrain s).mode = s.mode := rfl
@[simp] theorem completeDrain_power (s : State) : (completeDrain s).power = s.power := rfl
@[simp] theorem completeDrain_interval (s : State) : (completeDrain s).interval = s.interval := rfl
@[simp] theorem completeDrain_fw (s : State) : (completeDrain s).fw = s.fw := rfl
@[simp] theorem completeDrain_rxq (s : State) : (completeDrain s).rxq = s.rxq := rfl
@[simp] theorem completeDrain_txq (s : State) : (completeDrain s).txq = s.txq := rfl
@[simp] theorem completeDrain_stage (s : State) : (completeDrain s).stage = s.stage := rfl
@[simp] theorem completeDrain_latched (s : State) : (completeDrain s).latched = s.latched := rfl
@[simp] theorem completeDrain_held (s : State) : (completeDrain s).held = s.held := rfl
@[simp] theorem completeDrain_completions (s : State) :
    (completeDrain s).completions = s.completions ++ [⟨s.latched, .bit s.applied⟩] := rfl
@[simp] theorem completeDrain_sent (s : State) : (completeDrain s).sent = s.sent := rfl
@[simp] theorem completeDrain_agenda (s : State) : (completeDrain s).agenda = s.agenda := rfl
@[simp] theorem completeDrain_later (s : State) : (completeDrain s).later = s.later := rfl
@[simp] theorem completeDrain_draws (s : State) : (completeDrain s).draws = s.draws := rfl

@[simp] theorem startForm_params (n : OpName) (a : Byte) (b : Bool) (k : Nat) (e : Extra) (s : State) :
    (startForm n a b k e s).params = s.params := rfl
@[simp] theorem startForm_fb (n : OpName) (a : Byte) (b : Bool) (k : Nat) (e : Extra) (s : State) :
    (startForm n a b k e s).fb = s.fb := rfl
@[simp] theorem startForm_tb (n : OpName) (a : Byte) (b : Bool) (k : Nat) (e : Extra) (s : State) :
    (startForm n a b k e s).tb = build a b k e := rfl
@[simp] theorem startForm_phase (n : OpName) (a : Byte) (b : Bool) (k : Nat) (e : Extra) (s : State) :
    (startForm n a b k e s).phase = s.phase := rfl
@[simp] theorem startForm_cmdBusy (n : OpName) (a : Byte) (b : Bool) (k : Nat) (e : Extra) (s : State) :
    (startForm n a b k e s).cmdBusy = true := rfl
@[simp] theorem startForm_applied (n : OpName) (a : Byte) (b : Bool) (k : Nat) (e : Extra) (s : State) :
    (startForm n a b k e s).applied = s.applied := rfl
@[simp] theorem startForm_devid (n : OpName) (a : Byte) (b : Bool) (k : Nat) (e : Extra) (s : State) :
    (startForm n a b k e s).devid = s.devid := rfl
@[simp] theorem startForm_pm25 (n : OpName) (a : Byte) (b : Bool) (k : Nat) (e : Extra) (s : State) :
    (startForm n a b k e s).pm25 = s.pm25 := rfl
@[simp] theorem startForm_pm10 (n : OpName) (a : Byte) (b : Bool) (k : Nat) (e : Extra) (s : State) :
    (startForm n a b k e s).pm10 = s.pm10 := rfl
@[simp] theorem startForm_mode (n : OpName) (a : Byte) (b : Bool) (k : Nat) (e : Extra) (s : State) :
    (startForm n a b k e s).mode = s.mode := rfl
@[simp] theorem startForm_power (n : OpName) (a : Byte) (b : Bool) (k : Nat) (e : Extra) (s : State) :
    (startForm n a b k e s).power = s.power := rfl
@[simp] theorem startForm_interval (n : OpName) (a : Byte) (b : Bool) (k : Nat) (e : Extra) (s : State) :
    (startForm n a b k e s).interval = s.interval := rfl
@[simp] theorem startForm_fw (n : OpName) (a : Byte) (b : Bool) (k : Nat) (e : Extra) (s : State) :
    (startForm n a b k e s).fw = s.fw := rfl
@[simp] theorem startForm_rxq (n : OpName) (a : Byte) (b : Bool) (k : Nat) (e : Extra) (s : State) :
    (startForm n a b k e s).rxq = s.rxq := rfl
@[simp] theorem startForm_txq (n : OpName) (a : Byte) (b : Bool) (k : Nat) (e : Extra) (s : State) :
    (startForm n a b k e s).txq = s.txq := rfl
@[simp] theorem startForm_stage (n : OpName) (a : Byte) (b : Bool) (k : Nat) (e : Extra) (s : State) :
    (startForm n a b k e s).stage = .send := rfl
@[simp] theorem startForm_latched (n : OpName) (a : Byte) (b : Bool) (k : Nat) (e : Extra) (s : State) :
    (startForm n a b k e s).latched = n := rfl
@[simp] theorem startForm_held (n : OpName) (a : Byte) (b : Bool) (k : Nat) (e : Extra) (s : State) :
    (startForm n a b k e s).held = s.held := rfl
@[simp] theorem startForm_completions (n : OpName) (a : Byte) (b : Bool) (k : Nat) (e : Extra) (s : State) :
    (startForm n a b k e s).completions = s.completions := rfl
@[simp] theorem startForm_sent (n : OpName) (a : Byte) (b : Bool) (k : Nat) (e : Extra) (s : State) :
    (startForm n a b k e s).sent = s.sent := rfl
@[simp] theorem startForm_agenda (n : OpName) (a : Byte) (b : Bool) (k : Nat) (e : Extra) (s : State) :
    (startForm n a b k e s).agenda = s.agenda := rfl
@[simp] theorem startForm_later (n : OpName) (a : Byte) (b : Bool) (k : Nat) (e : Extra) (s : State) :
    (startForm n a b k e s).later = s.later := rfl
@[simp] theorem startForm_draws (n : OpName) (a : Byte) (b : Bool) (k : Nat) (e : Extra) (s : State) :
    (startForm n a b k e s).draws = s.draws := rfl

@[simp] theorem sendFrame_params (f : CmdFrame) (s : State) :
    (sendFrame f s).params = s.params := rfl
@[simp] theorem sendFrame_fb (f : CmdFrame) (s : State) : (sendFrame f s).fb = s.fb := rfl
@[simp] theorem sendFrame_tb (f : CmdFrame) (s : State) : (sendFrame f s).tb = s.tb := rfl
@[simp] theorem sendFrame_phase (f : CmdFrame) (s : State) : (sendFrame f s).phase = s.phase := rfl
@[simp] theorem sendFrame_cmdBusy (f : CmdFrame) (s : State) :
    (sendFrame f s).cmdBusy = s.cmdBusy := rfl
@[simp] theorem sendFrame_applied (f : CmdFrame) (s : State) :
    (sendFrame f s).applied = s.applied := rfl
@[simp] theorem sendFrame_devid (f : CmdFrame) (s : State) : (sendFrame f s).devid = s.devid := rfl
@[simp] theorem sendFrame_pm25 (f : CmdFrame) (s : State) : (sendFrame f s).pm25 = s.pm25 := rfl
@[simp] theorem sendFrame_pm10 (f : CmdFrame) (s : State) : (sendFrame f s).pm10 = s.pm10 := rfl
@[simp] theorem sendFrame_mode (f : CmdFrame) (s : State) : (sendFrame f s).mode = s.mode := rfl
@[simp] theorem sendFrame_power (f : CmdFrame) (s : State) : (sendFrame f s).power = s.power := rfl
@[simp] theorem sendFrame_interval (f : CmdFrame) (s : State) :
    (sendFrame f s).interval = s.interval := rfl
@[simp] theorem sendFrame_fw (f : CmdFrame) (s : State) : (sendFrame f s).fw = s.fw := rfl
@[simp] theorem sendFrame_rxq (f : CmdFrame) (s : State) : (sendFrame f s).rxq = s.rxq := rfl
@[simp] theorem sendFrame_txq (f : CmdFrame) (s : State) :
    (sendFrame f s).txq = s.txq ++ f.bytes := rfl
@[simp] theorem sendFrame_stage (f : CmdFrame) (s : State) : (sendFrame f s).stage = .wait := rfl
@[simp] theorem sendFrame_latched (f : CmdFrame) (s : State) :
    (sendFrame f s).latched = s.latched := rfl
@[simp] theorem sendFrame_held (f : CmdFrame) (s : State) : (sendFrame f s).held = s.held := rfl
@[simp] theorem sendFrame_completions (f : CmdFrame) (s : State) :
    (sendFrame f s).completions = s.completions := rfl
@[simp] theorem sendFrame_sent (f : CmdFrame) (s : State) :
    (sendFrame f s).sent = s.sent := rfl
@[simp] theorem sendFrame_agenda (f : CmdFrame) (s : State) :
    (sendFrame f s).agenda = s.agenda := rfl
@[simp] theorem sendFrame_later (f : CmdFrame) (s : State) :
    (sendFrame f s).later = s.later := rfl
@[simp] theorem sendFrame_draws (f : CmdFrame) (s : State) : (sendFrame f s).draws = s.draws := rfl

@[simp] theorem linkRx_params (b : Byte) (s : State) : (linkRx b s).params = s.params := rfl
@[simp] theorem linkRx_fb (b : Byte) (s : State) : (linkRx b s).fb = s.fb := rfl
@[simp] theorem linkRx_tb (b : Byte) (s : State) : (linkRx b s).tb = s.tb := rfl
@[simp] theorem linkRx_phase (b : Byte) (s : State) : (linkRx b s).phase = s.phase := rfl
@[simp] theorem linkRx_cmdBusy (b : Byte) (s : State) : (linkRx b s).cmdBusy = s.cmdBusy := rfl
@[simp] theorem linkRx_applied (b : Byte) (s : State) : (linkRx b s).applied = s.applied := rfl
@[simp] theorem linkRx_devid (b : Byte) (s : State) : (linkRx b s).devid = s.devid := rfl
@[simp] theorem linkRx_pm25 (b : Byte) (s : State) : (linkRx b s).pm25 = s.pm25 := rfl
@[simp] theorem linkRx_pm10 (b : Byte) (s : State) : (linkRx b s).pm10 = s.pm10 := rfl
@[simp] theorem linkRx_mode (b : Byte) (s : State) : (linkRx b s).mode = s.mode := rfl
@[simp] theorem linkRx_power (b : Byte) (s : State) : (linkRx b s).power = s.power := rfl
@[simp] theorem linkRx_interval (b : Byte) (s : State) : (linkRx b s).interval = s.interval := rfl
@[simp] theorem linkRx_fw (b : Byte) (s : State) : (linkRx b s).fw = s.fw := rfl
@[simp] theorem linkRx_rxq (b : Byte) (s : State) : (linkRx b s).rxq = s.rxq ++ [b] := rfl
@[simp] theorem linkRx_txq (b : Byte) (s : State) : (linkRx b s).txq = s.txq := rfl
@[simp] theorem linkRx_stage (b : Byte) (s : State) : (linkRx b s).stage = s.stage := rfl
@[simp] theorem linkRx_latched (b : Byte) (s : State) : (linkRx b s).latched = s.latched := rfl
@[simp] theorem linkRx_held (b : Byte) (s : State) : (linkRx b s).held = s.held := rfl
@[simp] theorem linkRx_completions (b : Byte) (s : State) :
    (linkRx b s).completions = s.completions := rfl
@[simp] theorem linkRx_sent (b : Byte) (s : State) : (linkRx b s).sent = s.sent := rfl
@[simp] theorem linkRx_agenda (b : Byte) (s : State) : (linkRx b s).agenda = s.agenda := rfl
@[simp] theorem linkRx_later (b : Byte) (s : State) : (linkRx b s).later = s.later := rfl
@[simp] theorem linkRx_draws (b : Byte) (s : State) : (linkRx b s).draws = s.draws := rfl

@[simp] theorem linkTx_params (s : State) : (linkTx s).params = s.params := rfl
@[simp] theorem linkTx_fb (s : State) : (linkTx s).fb = s.fb := rfl
@[simp] theorem linkTx_tb (s : State) : (linkTx s).tb = s.tb := rfl
@[simp] theorem linkTx_phase (s : State) : (linkTx s).phase = s.phase := rfl
@[simp] theorem linkTx_cmdBusy (s : State) : (linkTx s).cmdBusy = s.cmdBusy := rfl
@[simp] theorem linkTx_applied (s : State) : (linkTx s).applied = s.applied := rfl
@[simp] theorem linkTx_devid (s : State) : (linkTx s).devid = s.devid := rfl
@[simp] theorem linkTx_pm25 (s : State) : (linkTx s).pm25 = s.pm25 := rfl
@[simp] theorem linkTx_pm10 (s : State) : (linkTx s).pm10 = s.pm10 := rfl
@[simp] theorem linkTx_mode (s : State) : (linkTx s).mode = s.mode := rfl
@[simp] theorem linkTx_power (s : State) : (linkTx s).power = s.power := rfl
@[simp] theorem linkTx_interval (s : State) : (linkTx s).interval = s.interval := rfl
@[simp] theorem linkTx_fw (s : State) : (linkTx s).fw = s.fw := rfl
@[simp] theorem linkTx_rxq (s : State) : (linkTx s).rxq = s.rxq := rfl
@[simp] theorem linkTx_txq (s : State) : (linkTx s).txq = s.txq.tail := rfl
@[simp] theorem linkTx_stage (s : State) : (linkTx s).stage = s.stage := rfl
@[simp] theorem linkTx_latched (s : State) : (linkTx s).latched = s.latched := rfl
@[simp] theorem linkTx_held (s : State) : (linkTx s).held = s.held := rfl
@[simp] theorem linkTx_completions (s : State) : (linkTx s).completions = s.completions := rfl
@[simp] theorem linkTx_sent (s : State) : (linkTx s).sent = s.sent ++ s.txq.take 1 := rfl
@[simp] theorem linkTx_agenda (s : State) : (linkTx s).agenda = s.agenda := rfl
@[simp] theorem linkTx_later (s : State) : (linkTx s).later = s.later := rfl
@[simp] theorem linkTx_draws (s : State) : (linkTx s).draws = s.draws := rfl

@[simp] theorem hostRequest_params (r : OpRequest) (s : State) :
    (hostRequest r s).params = s.params := rfl
@[simp] theorem hostRequest_fb (r : OpRequest) (s : State) : (hostRequest r s).fb = s.fb := rfl
@[simp] theorem hostRequest_tb (r : OpRequest) (s : State) : (hostRequest r s).tb = s.tb := rfl
@[simp] theorem hostRequest_phase (r : OpRequest) (s : State) :
    (hostRequest r s).phase = s.phase := rfl
@[simp] theorem hostRequest_cmdBusy (r : OpRequest) (s : State) :
    (hostRequest r s).cmdBusy = s.cmdBusy := rfl
@[simp] theorem hostRequest_applied (r : OpRequest) (s : State) :
    (hostRequest r s).applied = s.applied := rfl
@[simp] theorem hostRequest_devid (r : OpRequest) (s : State) :
    (hostRequest r s).devid = s.devid := rfl
@[simp] theorem hostRequest_pm25 (r : OpRequest) (s : State) :
    (hostRequest r s).pm25 = s.pm25 := rfl
@[simp] theorem hostRequest_pm10 (r : OpRequest) (s : State) :
    (hostRequest r s).pm10 = s.pm10 := rfl
@[simp] theorem hostRequest_mode (r : OpRequest) (s : State) :
    (hostRequest r s).mode = s.mode := rfl
@[simp] theorem hostRequest_power (r : OpRequest) (s : State) :
    (hostRequest r s).power = s.power := rfl
@[simp] theorem hostRequest_interval (r : OpRequest) (s : State) :
    (hostRequest r s).interval = s.interval := rfl
@[simp] theorem hostRequest_fw (r : OpRequest) (s : State) : (hostRequest r s).fw = s.fw := rfl
@[simp] theorem hostRequest_rxq (r : OpRequest) (s : State) : (hostRequest r s).rxq = s.rxq := rfl
@[simp] theorem hostRequest_txq (r : OpRequest) (s : State) : (hostRequest r s).txq = s.txq := rfl
@[simp] theorem hostRequest_stage (r : OpRequest) (s : State) :
    (hostRequest r s).stage = s.stage := rfl
@[simp] theorem hostRequest_latched (r : OpRequest) (s : State) :
    (hostRequest r s).latched = s.latched := rfl
@[simp] theorem hostRequest_held (r : OpRequest) (s : State) :
    (hostRequest r s).held = s.held ++ [r] := rfl
@[simp] theorem hostRequest_completions (r : OpRequest) (s : State) :
    (hostRequest r s).completions = s.completions := rfl
@[simp] theorem hostRequest_sent (r : OpRequest) (s : State) :
    (hostRequest r s).sent = s.sent := rfl
@[simp] theorem hostRequest_agenda (r : OpRequest) (s : State) :
    (hostRequest r s).agenda = s.agenda := rfl
@[simp] theorem hostRequest_later (r : OpRequest) (s : State) :
    (hostRequest r s).later = s.later := rfl
@[simp] theorem hostRequest_draws (r : OpRequest) (s : State) :
    (hostRequest r s).draws = s.draws := rfl

@[simp] theorem scanFound_params (s : State) : (scanFound s).params = s.params := rfl
@[simp] theorem scanFound_fb (s : State) : (scanFound s).fb = s.fb := rfl
@[simp] theorem scanFound_tb (s : State) : (scanFound s).tb = s.tb := rfl
@[simp] theorem scanFound_phase (s : State) :
    (scanFound s).phase = if 10 ≤ tpAvail s then .read else .test := rfl
@[simp] theorem scanFound_cmdBusy (s : State) : (scanFound s).cmdBusy = s.cmdBusy := rfl
@[simp] theorem scanFound_applied (s : State) : (scanFound s).applied = s.applied := rfl
@[simp] theorem scanFound_devid (s : State) : (scanFound s).devid = s.devid := rfl
@[simp] theorem scanFound_pm25 (s : State) : (scanFound s).pm25 = s.pm25 := rfl
@[simp] theorem scanFound_pm10 (s : State) : (scanFound s).pm10 = s.pm10 := rfl
@[simp] theorem scanFound_mode (s : State) : (scanFound s).mode = s.mode := rfl
@[simp] theorem scanFound_power (s : State) : (scanFound s).power = s.power := rfl
@[simp] theorem scanFound_interval (s : State) : (scanFound s).interval = s.interval := rfl
@[simp] theorem scanFound_fw (s : State) : (scanFound s).fw = s.fw := rfl
@[simp] theorem scanFound_rxq (s : State) : (scanFound s).rxq = s.rxq := rfl
@[simp] theorem scanFound_txq (s : State) : (scanFound s).txq = s.txq := rfl
@[simp] theorem scanFound_stage (s : State) : (scanFound s).stage = s.stage := rfl
@[simp] theorem scanFound_latched (s : State) : (scanFound s).latched = s.latched := rfl
@[simp] theorem scanFound_held (s : State) : (scanFound s).held = s.held := rfl
@[simp] theorem scanFound_completions (s : State) : (scanFound s).completions = s.completions := rfl
@[simp] theorem scanFound_sent (s : State) : (scanFound s).sent = s.sent := rfl
@[simp] theorem scanFound_agenda (s : State) : (scanFound s).agenda = s.agenda := rfl
@[simp] theorem scanFound_later (s : State) : (scanFound s).later = s.later := rfl
@[simp] theorem scanFound_draws (s : State) : (scanFound s).draws = s.draws := rfl

@[simp] theorem validStep_params (s : State) : (validStep s).params = s.params := rfl
@[simp] theorem validStep_fb (s : State) : (validStep s).fb = s.fb := rfl
@[simp] theorem validStep_tb (s : State) : (validStep s).tb = s.tb := rfl
@[simp] theorem validStep_phase (s : State) :
    (validStep s).phase = if isInvalid (parseFb s) then .discard else .apply := rfl
@[simp] theorem validStep_cmdBusy (s : State) : (validStep s).cmdBusy = s.cmdBusy := rfl
@[simp] theorem validStep_applied (s : State) : (validStep s).applied = s.applied := rfl
@[simp] theorem validStep_devid (s : State) : (validStep s).devid = s.devid := rfl
@[simp] theorem validStep_pm25 (s : State) : (validStep s).pm25 = s.pm25 := rfl
@[simp] theorem validStep_pm10 (s : State) : (validStep s).pm10 = s.pm10 := rfl
@[simp] theorem validStep_mode (s : State) : (validStep s).mode = s.mode := rfl
@[simp] theorem validStep_power (s : State) : (validStep s).power = s.power := rfl
@[simp] theorem validStep_interval (s : State) : (validStep s).interval = s.interval := rfl
@[simp] theorem validStep_fw (s : State) : (validStep s).fw = s.fw := rfl
@[simp] theorem validStep_rxq (s : State) : (validStep s).rxq = s.rxq := rfl
@[simp] theorem validStep_txq (s : State) : (validStep s).txq = s.txq := rfl
@[simp] theorem validStep_stage (s : State) : (validStep s).stage = s.stage := rfl
@[simp] theorem validStep_latched (s : State) : (validStep s).latched = s.latched := rfl
@[simp] theorem validStep_held (s : State) : (validStep s).held = s.held := rfl
@[simp] theorem validStep_completions (s : State) : (validStep s).completions = s.completions := rfl
@[simp] theorem validStep_sent (s : State) : (validStep s).sent = s.sent := rfl
@[simp] theorem validStep_agenda (s : State) : (validStep s).agenda = s.agenda := rfl
@[simp] theorem validStep_later (s : State) : (validStep s).later = s.later := rfl
@[simp] theorem validStep_draws (s : State) : (validStep s).draws = s.draws := rfl

@[simp] theorem State.afterTurn_params (s : State) : s.afterTurn.params = s.params := rfl
@[simp] theorem State.afterTurn_fb (s : State) : s.afterTurn.fb = s.fb := rfl
@[simp] theorem State.afterTurn_tb (s : State) : s.afterTurn.tb = s.tb := rfl
@[simp] theorem State.afterTurn_phase (s : State) : s.afterTurn.phase = s.phase := rfl
@[simp] theorem State.afterTurn_cmdBusy (s : State) : s.afterTurn.cmdBusy = s.cmdBusy := rfl
@[simp] theorem State.afterTurn_applied (s : State) : s.afterTurn.applied = s.applied := rfl
@[simp] theorem State.afterTurn_devid (s : State) : s.afterTurn.devid = s.devid := rfl
@[simp] theorem State.afterTurn_pm25 (s : State) : s.afterTurn.pm25 = s.pm25 := rfl
@[simp] theorem State.afterTurn_pm10 (s : State) : s.afterTurn.pm10 = s.pm10 := rfl
@[simp] theorem State.afterTurn_mode (s : State) : s.afterTurn.mode = s.mode := rfl
@[simp] theorem State.afterTurn_power (s : State) : s.afterTurn.power = s.power := rfl
@[simp] theorem State.afterTurn_interval (s : State) : s.afterTurn.interval = s.interval := rfl
@[simp] theorem State.afterTurn_fw (s : State) : s.afterTurn.fw = s.fw := rfl
@[simp] theorem State.afterTurn_rxq (s : State) : s.afterTurn.rxq = s.rxq := rfl
@[simp] theorem State.afterTurn_txq (s : State) : s.afterTurn.txq = s.txq := rfl
@[simp] theorem State.afterTurn_stage (s : State) : s.afterTurn.stage = s.stage := rfl
@[simp] theorem State.afterTurn_latched (s : State) : s.afterTurn.latched = s.latched := rfl
@[simp] theorem State.afterTurn_held (s : State) : s.afterTurn.held = s.held := rfl
@[simp] theorem State.afterTurn_completions (s : State) :
    s.afterTurn.completions = s.completions := rfl
@[simp] theorem State.afterTurn_sent (s : State) : s.afterTurn.sent = s.sent := rfl
@[simp] theorem State.afterTurn_agenda (s : State) :
    s.afterTurn.agenda = (nextTurn s.agenda s.later).2.1 := rfl
@[simp] theorem State.afterTurn_later (s : State) :
    s.afterTurn.later = (nextTurn s.agenda s.later).2.2 := rfl
@[simp] theorem State.afterTurn_draws (s : State) : s.afterTurn.draws = s.draws := rfl

@[simp] theorem resetBlock_params (s : State) : (resetBlock s).params = s.params := rfl
@[simp] theorem resetBlock_fb (s : State) : (resetBlock s).fb = drawnFb s.draws := rfl
@[simp] theorem resetBlock_tb (s : State) : (resetBlock s).tb = drawnTb s.draws := rfl
@[simp] theorem resetBlock_phase (s : State) : (resetBlock s).phase = .idle := rfl
@[simp] theorem resetBlock_cmdBusy (s : State) : (resetBlock s).cmdBusy = false := rfl
@[simp] theorem resetBlock_applied (s : State) : (resetBlock s).applied = false := rfl
@[simp] theorem resetBlock_devid (s : State) : (resetBlock s).devid = Config.broadcast := rfl
@[simp] theorem resetBlock_pm25 (s : State) : (resetBlock s).pm25 = Config.resetPm25 s.draws := rfl
@[simp] theorem resetBlock_pm10 (s : State) : (resetBlock s).pm10 = Config.resetPm10 s.draws := rfl
@[simp] theorem resetBlock_mode (s : State) : (resetBlock s).mode = 0#1 := rfl
@[simp] theorem resetBlock_power (s : State) : (resetBlock s).power = 1#1 := rfl
@[simp] theorem resetBlock_interval (s : State) : (resetBlock s).interval = 0#8 := rfl
@[simp] theorem resetBlock_fw (s : State) : (resetBlock s).fw = s.params.fwReset := rfl
@[simp] theorem resetBlock_rxq (s : State) : (resetBlock s).rxq = s.rxq := rfl
@[simp] theorem resetBlock_txq (s : State) : (resetBlock s).txq = s.txq := rfl
@[simp] theorem resetBlock_stage (s : State) : (resetBlock s).stage = .send := rfl
@[simp] theorem resetBlock_latched (s : State) : (resetBlock s).latched = .drain := rfl
@[simp] theorem resetBlock_held (s : State) : (resetBlock s).held = s.held := rfl
@[simp] theorem resetBlock_completions (s : State) :
    (resetBlock s).completions = s.completions := rfl
@[simp] theorem resetBlock_sent (s : State) : (resetBlock s).sent = s.sent := rfl
@[simp] theorem resetBlock_agenda (s : State) : (resetBlock s).agenda = s.agenda := rfl
@[simp] theorem resetBlock_later (s : State) : (resetBlock s).later = s.later := rfl
@[simp] theorem resetBlock_draws (s : State) : (resetBlock s).draws = s.draws + 1 := rfl

end Sys2Proof.Machine
end

