-- ==== Sys2Proof/Laws/Bytes.lean ====
section
/-! SUPPORT. What the byte primitives and the frames' byte order do: splitting and joining (30_encoding.md
R74), sums (40_checksum.md R90), bytes to frames and back. -/

namespace Sys2Proof

theorem toNat_join16 (h l : Byte) : (join16 h l).toNat = 256 * h.toNat + l.toNat := by
  unfold join16
  rw [BitVec.toNat_append, ← Nat.shiftLeft_add_eq_or_of_lt l.isLt, Nat.shiftLeft_eq]
  omega

@[simp] theorem toNat_hi8 (v : Nat) : (hi8 v).toNat = v / 256 % 256 := by
  simp [hi8, Nat.shiftRight_eq_div_pow]

@[simp] theorem toNat_lo8 (v : Nat) : (lo8 v).toNat = v % 256 := by simp [lo8]

@[simp] theorem join16_hi8_lo8 (v : Word16) : join16 (hi8 v.toNat) (lo8 v.toNat) = v := by
  apply BitVec.eq_of_toNat_eq
  have := v.isLt
  simp [toNat_join16]
  omega

@[simp] theorem hi8_join16 (h l : Byte) : hi8 (join16 h l).toNat = h := by
  apply BitVec.eq_of_toNat_eq
  have := h.isLt
  have := l.isLt
  simp [toNat_join16]
  omega

@[simp] theorem lo8_join16 (h l : Byte) : lo8 (join16 h l).toNat = l := by
  apply BitVec.eq_of_toNat_eq
  have := l.isLt
  simp [toNat_join16]
  omega

theorem hi8_mod (v : Nat) : hi8 (v % 65536) = hi8 v := by
  apply BitVec.eq_of_toNat_eq
  simp
  omega

theorem lo8_mod (v : Nat) : lo8 (v % 65536) = lo8 v := by
  apply BitVec.eq_of_toNat_eq
  simp

/-- The running sum is the sum on unbounded integers mod 256 (R90). -/
theorem foldl_add_eq_byteSum (l : List Byte) (a : Byte) :
    l.foldl (· + ·) a = a + BitVec.ofNat 8 (Machine.byteSum l) := by
  induction l generalizing a with
  | nil => simp [Machine.byteSum]
  | cons b t ih =>
    have h : Machine.byteSum (b :: t) = b.toNat + Machine.byteSum t := by simp [Machine.byteSum]
    rw [List.foldl_cons, ih, h]
    apply BitVec.eq_of_toNat_eq
    simp
    omega

theorem sum8_eq_byteSum (b : List Byte) (lo hi : Nat) :
    sum8 b lo hi = BitVec.ofNat 8 (Machine.byteSum ((b.drop lo).take (hi + 1 - lo))) := by
  simp [sum8, foldl_add_eq_byteSum]

theorem sum8_empty (b : List Byte) (lo hi : Nat) (h : hi < lo) : sum8 b lo hi = 0 := by
  have : hi + 1 - lo = 0 := by omega
  simp [sum8, this]

@[simp] theorem sum8_inFrame (f : InFrame) :
    sum8 f.bytes 2 7 = f.p0 + f.p1 + f.p2 + f.p3 + f.idHi + f.idLo := by
  simp [sum8, InFrame.bytes]

theorem inboundSum_eq (p0 p1 p2 p3 : Byte) (id : Word16) :
    inboundSum p0 p1 p2 p3 id = p0 + p1 + p2 + p3 + hi8 id.toNat + lo8 id.toNat := by
  simp [inboundSum, sum8]

@[simp] theorem InFrame.length_bytes (f : InFrame) : f.bytes.length = 10 := rfl

@[simp] theorem Extra.length_bytes (e : Extra) : e.bytes.length = 11 := rfl

@[simp] theorem CmdFrame.length_bytes (f : CmdFrame) : f.bytes.length = 19 := rfl

@[simp] theorem Extra.ofBytes_bytes (e : Extra) : Extra.ofBytes e.bytes = some e := rfl

@[simp] theorem CmdFrame.ofBytes_bytes (f : CmdFrame) : CmdFrame.ofBytes f.bytes = some f := rfl

@[simp] theorem InFrame.takeFrom_bytes (f : InFrame) (rest : List Byte) :
    InFrame.takeFrom (f.bytes ++ rest) = some (f, rest) := rfl

@[simp] theorem InFrame.ofBytes_bytes (f : InFrame) : InFrame.ofBytes f.bytes = some f := rfl

theorem InFrame.bytes_of_takeFrom {l rest : List Byte} {f : InFrame}
    (h : InFrame.takeFrom l = some (f, rest)) : l = f.bytes ++ rest := by
  unfold InFrame.takeFrom at h
  split at h
  · simp only [Option.some.injEq, Prod.mk.injEq] at h
    obtain ⟨rfl, rfl⟩ := h
    rfl
  · exact absurd h (by simp)

theorem InFrame.takeFrom_of_length {l : List Byte} (h : 10 ≤ l.length) :
    ∃ f rest, InFrame.takeFrom l = some (f, rest) ∧ l = f.bytes ++ rest := by
  match l, h with
  | b0 :: b1 :: b2 :: b3 :: b4 :: b5 :: b6 :: b7 :: b8 :: b9 :: rest, _ =>
    exact ⟨⟨b0, b1, b2, b3, b4, b5, b6, b7, b8, b9⟩, rest, rfl, rfl⟩

theorem InFrame.takeFrom_none {l : List Byte} (h : InFrame.takeFrom l = none) : l.length < 10 := by
  by_contra hl
  obtain ⟨f, rest, hf, -⟩ := InFrame.takeFrom_of_length (l := l) (by omega)
  rw [h] at hf
  exact absurd hf (by simp)

theorem InFrame.bytes_of_ofBytes {l : List Byte} {f : InFrame} (h : InFrame.ofBytes l = some f) :
    l = f.bytes := by
  unfold InFrame.ofBytes at h
  split at h
  · rename_i g hg
    simp only [Option.some.injEq] at h
    subst h
    simpa using InFrame.bytes_of_takeFrom hg
  · exact absurd h (by simp)

theorem CmdFrame.bytes_of_ofBytes {l : List Byte} {f : CmdFrame} (h : CmdFrame.ofBytes l = some f) :
    l = f.bytes := by
  unfold CmdFrame.ofBytes at h
  split at h
  · simp only [Option.some.injEq] at h
    subst h
    rfl
  · exact absurd h (by simp)

theorem Extra.bytes_of_ofBytes {l : List Byte} {e : Extra} (h : Extra.ofBytes l = some e) :
    l = e.bytes := by
  unfold Extra.ofBytes at h
  split at h
  · simp only [Option.some.injEq] at h
    subst h
    rfl
  · exact absurd h (by simp)

theorem Extra.bytes_injective {e e' : Extra} (h : e.bytes = e'.bytes) : e = e' := by
  simpa using congrArg Extra.ofBytes h

theorem CmdFrame.bytes_injective {f f' : CmdFrame} (h : f.bytes = f'.bytes) : f = f' := by
  simpa using congrArg CmdFrame.ofBytes h

theorem InFrame.bytes_injective {f f' : InFrame} (h : f.bytes = f'.bytes) : f = f' := by
  simpa using congrArg InFrame.ofBytes h

/-- The checksum of a command frame does not depend on its head, command, checksum and tail (R69). -/
theorem sum8_cmdFrame (f : CmdFrame) :
    sum8 f.bytes 2 16 = [f.action, f.set].foldl (· + ·) 0 + sum8 f.extra.bytes 0 10
      + f.addrHi + f.addrLo := by
  simp [sum8, CmdFrame.bytes, Extra.bytes]
  ac_rfl

@[simp] theorem sum8_sealed (f : CmdFrame) : sum8 f.sealed.bytes 2 16 = sum8 f.bytes 2 16 := by
  simp [sum8_cmdFrame, CmdFrame.sealed]

end Sys2Proof
end

