-- ==== Sys2Proof/Laws/Decode.lean ====
section
/-! SUPPORT. What the decoder and the encoder do: the extra regions of the command forms, the frames of
BUILD as bytes (30_encoding.md R61), what an accepted frame or request is the encoding of (R75, R78). -/

namespace Sys2Proof
open Sys2Proof.Machine

/-! Extra regions. -/

theorem Extra.get_put (e : Extra) {i : Nat} (h : i ≤ 10) (v : Byte) : (e.put i v).get i = v := by
  interval_cases i <;> rfl

theorem Extra.get_put_ne (e : Extra) {i j : Nat} (hi : i ≤ 10) (hj : j ≤ 10) (h : i ≠ j) (v : Byte) :
    (e.put i v).get j = e.get j := by
  interval_cases i <;> interval_cases j <;> first | exact absurd rfl h | rfl

theorem Extra.bytes_getElem? (e : Extra) {k : Nat} (h : k < 11) : e.bytes[k]? = some (e.get k) := by
  simp only [Extra.get]
  have hl : k < e.bytes.length := h
  rw [List.getElem?_eq_getElem hl]; rfl

theorem Extra.zero_get (k : Nat) : Extra.zero.get k = 0 := by
  unfold Extra.get
  rcases k with _ | _ | _ | _ | _ | _ | _ | _ | _ | _ | _ | k <;> rfl

/-- What it says that parameters are legal, one clause after the other. -/
theorem Params.legal_iff {c : Params} : c.legal = true ↔
    (4 ≤ c.extraAtValue ∧ c.extraAtValue ≤ 14)
    ∧ (4 ≤ c.extraAtNewIdHi ∧ c.extraAtNewIdHi ≤ 14) ∧ (4 ≤ c.extraAtNewIdLo ∧ c.extraAtNewIdLo ≤ 14)
    ∧ c.extraAtNewIdHi ≠ c.extraAtNewIdLo
    ∧ c.actFirmware ≠ Config.actMode ∧ c.actFirmware ≠ Config.actId
    ∧ c.actFirmware ≠ Config.actState ∧ c.actFirmware ≠ Config.actInterval := by
  simp [Params.legal, and_assoc]

theorem valueExtra_get {c : Params} (h : c.legal = true) (v : Byte) :
    (valueExtra c v).get (extraIndex c.extraAtValue) = v := by
  have := Params.legal_iff.1 h
  exact Extra.get_put _ (by unfold extraIndex; omega) v

theorem newIdExtra_getHi {c : Params} (h : c.legal = true) (hi lo : Byte) :
    (newIdExtra c hi lo).get (extraIndex c.extraAtNewIdHi) = hi := by
  have := Params.legal_iff.1 h
  unfold newIdExtra
  rw [Extra.get_put_ne _ (by unfold extraIndex; omega) (by unfold extraIndex; omega)
    (by unfold extraIndex; omega), Extra.get_put _ (by unfold extraIndex; omega)]

theorem newIdExtra_getLo {c : Params} (h : c.legal = true) (hi lo : Byte) :
    (newIdExtra c hi lo).get (extraIndex c.extraAtNewIdLo) = lo := by
  have := Params.legal_iff.1 h
  exact Extra.get_put _ (by unfold extraIndex; omega) lo

theorem valueExtra_bytes {c : Params} (h : c.legal = true) (v : Byte) :
    (valueExtra c v).bytes = valueBytes c v := by
  obtain ⟨_, _, _, k, _, _, _⟩ := c
  have := Params.legal_iff.1 h
  dsimp only at this
  obtain ⟨j, rfl⟩ : ∃ j, k = j + 4 := ⟨k - 4, by omega⟩
  have hj : j < 11 := by omega
  interval_cases j <;> rfl

theorem Extra.zero_bytes : Extra.zero.bytes = List.replicate 11 0 := rfl

theorem newIdExtra_bytes {c : Params} (h : c.legal = true) (n : Nat) :
    (newIdExtra c (hi8 n) (lo8 n)).bytes = newIdBytes c n := by
  obtain ⟨_, _, _, _, k, l, _⟩ := c
  have := Params.legal_iff.1 h
  dsimp only at this
  have hh : hi8 n = BitVec.ofNat 8 (n / 256) := by simp [hi8, Nat.shiftRight_eq_div_pow]
  rw [hh]
  obtain ⟨j, rfl⟩ : ∃ j, k = j + 4 := ⟨k - 4, by omega⟩
  obtain ⟨i, rfl⟩ : ∃ i, l = i + 4 := ⟨l - 4, by omega⟩
  have hj : j < 11 := by omega
  have hi : i < 11 := by omega
  have hne : j ≠ i := by omega
  clear this h
  interval_cases j <;> interval_cases i <;> first | rfl | exact absurd rfl hne

theorem boolByte_eq (b : Bool) : boolByte b = if b then 1 else 0 := rfl

theorem boolByte_of_le {v : Byte} (h : v ≤ 1#8) : boolByte (v == 1#8) = v := by
  revert h; revert v; decide

/-! Command frames. -/

theorem cmdLayout_bytes (a : Byte) (b : Bool) (e : Extra) (k : Nat) :
    (cmdLayout a b e (hi8 k) (lo8 k)).bytes = commandBytes a (if b then 1 else 0) e.bytes k := by
  have hh : hi8 k = BitVec.ofNat 8 (k / 256) := by simp [hi8, Nat.shiftRight_eq_div_pow]
  have hl : lo8 k = BitVec.ofNat 8 k := rfl
  unfold cmdLayout CmdFrame.sealed commandBytes
  rw [sum8_eq_byteSum, hh, hl]
  obtain ⟨x0, x1, x2, x3, x4, x5, x6, x7, x8, x9, x10⟩ := e
  cases b <;> simp [CmdFrame.bytes, Extra.bytes, Config.headByte, Config.cmdId, Config.tailByte]

/-- BUILD's bytes are those the field table of R61 lists. -/
theorem build_bytes (a : Byte) (b : Bool) (k : Nat) (e : Extra) :
    (build a b k e).bytes = commandBytes a (if b then 1 else 0) e.bytes k := cmdLayout_bytes a b e k

theorem cmdTo_bytes (a : Byte) (b : Bool) (e : Extra) (k : Word16) :
    (cmdTo a b e k).bytes = commandBytes a (if b then 1 else 0) e.bytes k.toNat :=
  cmdLayout_bytes a b e k.toNat

/-- BUILD uses only the low 16 bits of the address (R103). -/
theorem build_eq_cmdTo (a : Byte) (b : Bool) (k : Nat) (e : Extra) :
    build a b k e = cmdTo a b e (BitVec.ofNat 16 k) := by
  simp only [build, cmdTo, BitVec.toNat_ofNat]
  rw [show (2 : Nat) ^ 16 = 65536 from rfl, hi8_mod, lo8_mod]

/-- The decoder accepts every frame BUILD can produce. -/
theorem decodeCmd_cmdTo (c : Params) (a : Byte) (b : Bool) (e : Extra) (addr : Word16) :
    decodeCmd c (cmdTo a b e addr) = .ok (classifyCmd c a b e addr) := by
  have h : sum8 (cmdTo a b e addr).bytes 2 16 = (cmdTo a b e addr).checksum := by
    unfold cmdTo cmdLayout
    rw [sum8_sealed]; rfl
  unfold decodeCmd
  rw [h]
  cases b <;> simp [cmdTo, cmdLayout, CmdFrame.sealed]

theorem classifyCmd_of_not_named {c a b e addr} (h : namedCmd c a b e = false) :
    classifyCmd c a b e addr = .cmdAny a b e addr := by
  simp only [namedCmd, Bool.or_eq_false_iff, Bool.and_eq_false_iff, beq_eq_false_iff_ne,
    decide_eq_false_iff_not] at h
  obtain ⟨⟨⟨⟨h1, h2⟩, h3⟩, h4⟩, h5⟩ := h
  unfold classifyCmd
  dsimp only
  rw [if_neg, if_neg, if_neg, if_neg, if_neg]
  · rintro ⟨ha, hb, he, hv⟩
    rcases h5 with ((h | h) | h) | h
    exacts [h ha, by simp [hb] at h, h he, h hv]
  · rintro ⟨ha, hb, he, hv⟩
    rcases h4 with ((h | h) | h) | h
    exacts [h ha, by simp [hb] at h, h he, h hv]
  · rintro ⟨ha, hb, he⟩
    rcases h3 with (h | h) | h
    exacts [h ha, by simp [hb] at h, h he]
  · rintro ⟨ha, hb, he⟩
    rcases h2 with (h | h) | h
    exacts [h ha, by simp [hb] at h, h he]
  · rintro ⟨ha, hb, he, hv⟩
    rcases h1 with ((h | h) | h) | h
    exacts [h ha, by simp [hb] at h, h he, h hv]

/-- The five command forms' frames are classified to their rows, at every legal value of the
parameters. -/
theorem classifyCmd_mode {c : Params} (h : c.legal = true) (p : Bool) (addr : Word16) :
    classifyCmd c Config.actMode true (valueExtra c (boolByte p)) addr = .cmdMode p addr := by
  cases p <;> simp [classifyCmd, boolByte, valueExtra_get h]

theorem classifyCmd_query (c : Params) (addr : Word16) :
    classifyCmd c Config.actQuery false Extra.zero addr = .cmdQuery addr := by
  simp [classifyCmd]

theorem classifyCmd_id {c : Params} (h : c.legal = true) (hi lo : Byte) (addr : Word16) :
    classifyCmd c Config.actId true (newIdExtra c hi lo) addr = .cmdId (join16 hi lo) addr := by
  simp [classifyCmd, newIdExtra_getHi h, newIdExtra_getLo h, Config.actMode, Config.actQuery,
    Config.actId]

theorem classifyCmd_state {c : Params} (h : c.legal = true) (p : Bool) (addr : Word16) :
    classifyCmd c Config.actState true (valueExtra c (boolByte p)) addr = .cmdState p addr := by
  cases p <;> simp [classifyCmd, boolByte, valueExtra_get h, Config.actMode, Config.actQuery,
    Config.actId, Config.actState]

theorem classifyCmd_interval {c : Params} (h : c.legal = true) {v : Byte} (hv : v ≤ 0x1E#8)
    (addr : Word16) :
    classifyCmd c Config.actInterval true (valueExtra c v) addr = .cmdInterval v addr := by
  simp [classifyCmd, valueExtra_get h, hv, Config.actMode, Config.actQuery, Config.actId,
    Config.actState, Config.actInterval]

/-- What an accepted command frame is: a frame BUILD can produce, with no byte left open. -/
theorem cmdFrame_of_decode {c : Params} {f : CmdFrame} {i : Instr} (h : decodeCmd c f = .ok i) :
    i = classifyCmd c f.action (f.set == 1#8) f.extra (join16 f.addrHi f.addrLo)
    ∧ f = cmdTo f.action (f.set == 1#8) f.extra (join16 f.addrHi f.addrLo) := by
  unfold decodeCmd at h
  split_ifs at h with h1 h2 h3 h4 h5
  simp only [Except.ok.injEq] at h
  refine ⟨h.symm, ?_⟩
  simp only [ne_eq, not_and_or, not_not] at *
  have hs : (if (f.set == 1#8) = true then 1#8 else 0#8) = f.set := by
    rcases h3 with h3 | h3 <;> simp [h3]
  unfold cmdTo cmdLayout CmdFrame.sealed
  simp only [hi8_join16, lo8_join16, hs]
  rw [sum8_cmdFrame] at h4
  simp only [sum8_cmdFrame, ← h4]
  rw [← h1, ← h2, ← h5]

theorem encode_classifyCmd (c : Params) (a : Byte) (b : Bool) (e : Extra) (addr : Word16) :
    encode c (classifyCmd c a b e addr) = .cmd (cmdTo a b e addr) ∧
      (classifyCmd c a b e addr).wf c = true := by
  unfold classifyCmd
  dsimp only
  split_ifs with h1 h2 h3 h4 h5
  · obtain ⟨rfl, rfl, h, hv⟩ := h1
    refine ⟨?_, rfl⟩
    simp only [encode, boolByte_of_le hv, ← h]
  · obtain ⟨rfl, rfl, rfl⟩ := h2
    exact ⟨rfl, rfl⟩
  · obtain ⟨rfl, rfl, h⟩ := h3
    refine ⟨?_, rfl⟩
    simp only [encode, hi8_join16, lo8_join16, ← h]
  · obtain ⟨rfl, rfl, h, hv⟩ := h4
    refine ⟨?_, rfl⟩
    simp only [encode, boolByte_of_le hv, ← h]
  · obtain ⟨rfl, rfl, h, hv⟩ := h5
    refine ⟨?_, by simpa [Instr.wf] using hv⟩
    simp only [encode, ← h]
  · refine ⟨rfl, ?_⟩
    simp only [Instr.wf, Bool.not_eq_true']
    by_contra hn
    simp only [namedCmd, Bool.not_eq_false, Bool.or_eq_true, Bool.and_eq_true, beq_iff_eq,
      decide_eq_true_eq, Bool.not_eq_true'] at hn
    rcases hn with (((⟨⟨⟨k1, k2⟩, k3⟩, k4⟩ | ⟨⟨k1, k2⟩, k3⟩) | ⟨⟨k1, k2⟩, k3⟩)
      | ⟨⟨⟨k1, k2⟩, k3⟩, k4⟩) | ⟨⟨⟨k1, k2⟩, k3⟩, k4⟩
    exacts [h1 ⟨k1, k2, k3, k4⟩, h2 ⟨k1, k2, k3⟩, h3 ⟨k1, k2, k3⟩, h4 ⟨k1, k2, k3, k4⟩,
      h5 ⟨k1, k2, k3, k4⟩]

theorem encode_of_decodeCmd {c : Params} {f : CmdFrame} {i : Instr} (h : decodeCmd c f = .ok i) :
    encode c i = .cmd f ∧ i.wf c = true := by
  obtain ⟨h1, h2⟩ := cmdFrame_of_decode h
  rw [h1]
  have := encode_classifyCmd c f.action (f.set == 1#8) f.extra (join16 f.addrHi f.addrLo)
  rw [← h2] at this
  exact this

/-! Inbound frames and requests. -/

theorem encode_classifyIn (c : Params) (f : InFrame) :
    encode c (classifyIn c f) = .inb { f with head := Config.headByte }
      ∧ (classifyIn c f).wf c = true := by
  unfold classifyIn
  dsimp only
  split_ifs with h1 h2 h3 h4 h5 h6 h7 h8 <;>
    simp_all [encode, inboundFrame, InFrame.sealed, Instr.wf, inboundSum_eq, namedReply]

theorem encode_of_decodeIn {c : Params} {f : InFrame} {i : Instr} (h : decodeIn c f = .ok i) :
    encode c i = .inb f ∧ i.wf c = true := by
  unfold decodeIn at h
  split_ifs at h with h1
  simp only [Except.ok.injEq] at h
  subst h
  have := encode_classifyIn c f
  simp only [ne_eq, not_not] at h1
  rw [← h1] at this
  exact this

/-- An accepted request is the encoding of the operation it asks for (R78). -/
theorem encode_of_decodeRequest {c : Params} {r : OpRequest} {i : Instr}
    (h : decodeRequest r = .ok i) : encode c i = .op r := by
  obtain ⟨n, os⟩ := r
  unfold decodeRequest at h
  have hA : ∀ {n l a}, decodeAddr n l = .ok a → addrOperands a = l := by
    intro n l a h
    unfold decodeAddr at h
    split at h <;> simp at h <;> subst h <;> rfl
  simp only at h
  split at h
  all_goals try (simp only [Except.ok.injEq] at h; subst h; rfl)
  all_goals try (exact absurd h (by simp))
  · split at h <;> simp at h
    subst h
    rename_i he
    simp [encode, Extra.bytes_of_ofBytes he]
  · split at h <;> simp at h
    subst h
    rename_i he
    simp [encode, InFrame.bytes_of_ofBytes he]
  case h_10 =>
    rcases ha : decodeAddr .query os with e | a <;> rw [ha] at h <;> simp [Except.map] at h
    subst h
    simp [encode, hA ha]
  all_goals
    rename_i l
    rcases ha : decodeAddr _ l with e | a <;> rw [ha] at h <;> simp [Except.map] at h
    subst h
    simp [encode, hA ha]

theorem decodeBytes_in (c : Params) (f : InFrame) : decodeBytes c f.bytes = decodeIn c f := rfl

theorem decodeBytes_cmd (c : Params) (f : CmdFrame) : decodeBytes c f.bytes = decodeCmd c f := rfl

end Sys2Proof
end

