-- ==== Sys2Proof/Laws/Ops.lean ====
section
/-! SUPPORT. For each shared operation, once, everything it can do: port OP (00_scope.md R8), PARSE
(42_decoder.md R110), what APPLY writes (43_scanner.md R126), the scanner's micro-steps and the
segmentation (R132). -/

namespace Sys2Proof.Machine

/-! Port OP. -/

theorem onPort_idle {i : Instr} {run : State → Host.Outcome State Fault Refusal} {s : State}
    (h : s.Idle) : onPort i run s = run s := by
  simp [onPort, h.1, h.2]

theorem onPort_busy {i : Instr} {run : State → Host.Outcome State Fault Refusal} {s : State}
    (h : ¬ s.Idle) : onPort i run s = .next (hold i s) := if_neg h

theorem unsignedDomain_addr {addr : Option Int} (h : 0 ≤ addr.getD 0xFFFF) :
    unsignedDomain (addrOperand addr) = true := decide_eq_true h

theorem unsignedDomain_addr_neg {addr : Option Int} (h : addr.getD 0xFFFF < 0) :
    unsignedDomain (addrOperand addr) = false :=
  decide_eq_false (by unfold addrOperand; omega)

/-- One request is served and the others keep their order, whatever the index. -/
theorem pickHeld_split (r : OpRequest) (rs : List OpRequest) (k : Nat) :
    ∃ l l', r :: rs = l ++ (pickHeld r rs k).1 :: l' ∧ (pickHeld r rs k).2 = l ++ l' := by
  induction rs generalizing r k with
  | nil => exact ⟨[], [], rfl, rfl⟩
  | cons r' rs ih =>
    cases k with
    | zero => exact ⟨[], r' :: rs, rfl, rfl⟩
    | succ k =>
      obtain ⟨l, l', h1, h2⟩ := ih r' k
      exact ⟨r :: l, l', by simp [pickHeld, ← h1], by simp [pickHeld, h2]⟩

/-! PARSE. -/

theorem validateValue_inFrame (f : InFrame) :
    validateValue f.bytes 2 7 = (f.checksum == sum8 f.bytes 2 7) := by
  have : f.bytes[(7 : Int).toNat + 1]? = some f.checksum := rfl
  unfold validateValue checksumValue
  rw [this]
  simp

theorem sumHolds_iff (f : InFrame) : inboundSumHolds f = (f.checksum == sum8 f.bytes 2 7) := by
  rw [sum8_eq_byteSum]
  have h : ((f.bytes.drop 2).take (7 + 1 - 2)) = [f.p0, f.p1, f.p2, f.p3, f.idHi, f.idLo] := rfl
  rw [h]
  unfold inboundSumHolds
  rw [Bool.eq_iff_iff]
  simp only [beq_iff_eq]
  constructor
  · intro h; apply BitVec.eq_of_toNat_eq; simpa using h
  · intro h; rw [h]; simp

theorem parse_bad {o : PmOrder} {f : InFrame} (h : inboundSumHolds f = false) : parse o f = .invalid .badChecksum := by
  rw [sumHolds_iff, ← validateValue_inFrame] at h
  simp [parse, h]

theorem parse_data {o : PmOrder} {f : InFrame} (h : inboundSumHolds f = true) (hc : f.commandId = 0xC0) :
    parse o f = .dataReading (reading o f.p0 f.p1) (reading o f.p2 f.p3) (join16 f.idHi f.idLo) := by
  rw [sumHolds_iff, ← validateValue_inFrame] at h
  simp [parse, h, hc, Config.dataId]

theorem parse_reply {o : PmOrder} {f : InFrame} (h : inboundSumHolds f = true) (hc : f.commandId = 0xC5) :
    parse o f = .replyAck f.p0 f.p1 f.p2 f.p3 (join16 f.idHi f.idLo) := by
  rw [sumHolds_iff, ← validateValue_inFrame] at h
  simp [parse, h, hc, Config.dataId, Config.replyId]

theorem parse_unknown {o : PmOrder} {f : InFrame} (h : inboundSumHolds f = true)
    (hc : f.commandId ≠ 0xC0) (hr : f.commandId ≠ 0xC5) :
    parse o f = .invalid .unknownCommand := by
  rw [sumHolds_iff, ← validateValue_inFrame] at h
  simp [parse, h, Config.dataId, Config.replyId]
  simp_all

theorem toNat_reading (o : PmOrder) (a b : Byte) :
    (reading o a b).toNat = readingNat o a b := by
  cases o <;> simp [reading, readingNat, toNat_join16]

theorem isInvalid_parse (o : PmOrder) (f : InFrame) : isInvalid (parse o f)
    = !(inboundSumHolds f && (f.commandId == 0xC0 || f.commandId == 0xC5)) := by
  by_cases h : inboundSumHolds f = true
  · by_cases h1 : f.commandId = 0xC0
    · rw [parse_data h h1]; simp [isInvalid, h, h1]
    · by_cases h2 : f.commandId = 0xC5
      · rw [parse_reply h h2]; simp [isInvalid, h, h2]
      · rw [parse_unknown h h1 h2]; simp [isInvalid, h]; exact ⟨h1, h2⟩
  · simp only [Bool.not_eq_true] at h
    rw [parse_bad h]; simp [isInvalid, h]

/-! APPLY and stage 2. -/

theorem latchReply_frame (c : Params) (a v0 v1 v2 : Byte) (id : Word16) (s : State) :
    ∃ m p i f, latchReply c a v0 v1 v2 id s
      = { s with devid := id, mode := m, power := p, interval := i, fw := f } := by
  unfold latchReply
  dsimp only
  split_ifs <;> exact ⟨_, _, _, _, rfl⟩

/-- Everything APPLY or DISCARD can change: the registers, the flag and the phase. -/
theorem applyResult_frame (c : Params) (r : ParseResult) (s : State) :
    ∃ d p q m w i f, applyResult c r s
      = { s with devid := d, pm25 := p, pm10 := q, mode := m, power := w, interval := i, fw := f
                 applied := s.applied || !isInvalid r, phase := .test } := by
  cases r with
  | dataReading p q d =>
    exact ⟨d, p, q, s.mode, s.power, s.interval, s.fw, by
      simp [applyResult, isInvalid, finishApply, setApplied, latchReading]⟩
  | replyAck a v0 v1 v2 id =>
    obtain ⟨m, p, i, f, h⟩ := latchReply_frame c a v0 v1 v2 id s
    exact ⟨id, s.pm25, s.pm10, m, p, i, f, by
      simp [applyResult, isInvalid, finishApply, setApplied, h]⟩
  | invalid =>
    exact ⟨s.devid, s.pm25, s.pm10, s.mode, s.power, s.interval, s.fw, by
      simp [applyResult, isInvalid, discardFrame]⟩

theorem applyResult_with (c : Params) (r : ParseResult) (s : State) (f : InFrame) (q : List Byte) (p : Phase) :
    applyResult c r { s with fb := f, rxq := q, phase := p }
      = { applyResult c r s with fb := f, rxq := q } := by
  cases r with
  | dataReading => rfl
  | invalid => rfl
  | replyAck a =>
    simp only [applyResult, finishApply, setApplied, latchReply]
    split_ifs <;> rfl

theorem applyResult_ctl (c : Params) (r : ParseResult) (s : State) :
    (applyResult c r s).agenda = s.agenda ∧ (applyResult c r s).later = s.later
    ∧ (applyResult c r s).rxq = s.rxq
    ∧ (applyResult c r s).phase = .test ∧ (applyResult c r s).latched = s.latched
    ∧ (applyResult c r s).completions = s.completions ∧ (applyResult c r s).fb = s.fb
    ∧ (applyResult c r s).params = s.params := by
  obtain ⟨_, _, _, _, _, _, _, he⟩ := applyResult_frame c r s
  rw [he]; simp

/-- An inbound row, run: registers and the flag as its frame says, the phase TEST, all else as it was. -/
theorem exec_inbound_frame {c : Params} {i : Instr} {f : InFrame} (h : encode c i = .inb f) (s : State) :
    ∃ d p q m w v k b, exec i s = .next
      { s with devid := d, pm25 := p, pm10 := q, mode := m, power := w, interval := v, fw := k
               applied := s.applied || b, phase := .test } := by
  have hr : ∃ r, exec i s = .next (applyResult s.params r s) := by
    cases i <;> simp only [encode, reduceCtorEq] at h <;> exact ⟨_, rfl⟩
  obtain ⟨r, hr⟩ := hr
  obtain ⟨d, p, q, m, w, v, k, he⟩ := applyResult_frame s.params r s
  exact ⟨d, p, q, m, w, v, k, !isInvalid r, by rw [hr, he]⟩

/-- A command frame, run, is written to the transport (R141). -/
theorem exec_of_decodeCmd {f : CmdFrame} {i : Instr} {s : State} (h : decodeCmd s.params f = .ok i) :
    exec i s = .next (sendFrame f s) := by
  have h1 := (encode_of_decodeCmd h).1
  cases i <;> simp only [encode, Code.cmd.injEq, reduceCtorEq] at h1 <;> subst h1 <;> rfl

theorem sendStage_eq (s : State) : sendStage s = .next (sendFrame s.tb s) := by
  unfold sendStage
  split
  · exact exec_of_decodeCmd ‹_›
  · rfl

/-! The operations' operands. -/

theorem minutesByte_le (m : Int) : minutesByte m ≤ 0x1E#8 := by
  unfold minutesByte clamp Config.intervalMin Config.intervalMax
  split_ifs with h1 h2
  · decide
  · decide
  · have hm : m.toNat ≤ 30 := by omega
    have : m = (m.toNat : Int) := by omega
    rw [this]
    rw [BitVec.le_def]
    simp
    omega

theorem minutesByte_eq (m : Int) :
    minutesByte m = BitVec.ofNat 8 (if m < 0 then 0 else if m > 30 then 30 else m.toNat) := by
  unfold minutesByte clamp Config.intervalMin Config.intervalMax
  split_ifs with h1 h2
  · rfl
  · rfl
  · have : m = (m.toNat : Int) := by omega
    conv_lhs => rw [this]
    rw [BitVec.ofInt_natCast]

theorem holdsFormFrame_build {c : Params} {a : Byte} {b : Bool} {k : Nat} {e : Extra} {i : Instr} (h : i.row < 5)
    (hi : classifyCmd c a b e (BitVec.ofNat 16 k) = i) :
    holdsFormFrame c (build a b k e) = true := by
  simp [holdsFormFrame, build_eq_cmdTo, decodeCmd_cmdTo, hi, h]

theorem holdsFormFrame_mode {c : Params} (h : c.legal = true) (p : Bool) (k : Nat) :
    holdsFormFrame c (build Config.actMode true k (valueExtra c (boolByte p))) = true :=
  holdsFormFrame_build (i := .cmdMode p _) (by simp [Instr.row]) (classifyCmd_mode h p _)

theorem holdsFormFrame_state {c : Params} (h : c.legal = true) (p : Bool) (k : Nat) :
    holdsFormFrame c (build Config.actState true k (valueExtra c (boolByte p))) = true :=
  holdsFormFrame_build (i := .cmdState p _) (by simp [Instr.row]) (classifyCmd_state h p _)

theorem holdsFormFrame_query (c : Params) (k : Nat) :
    holdsFormFrame c (build Config.actQuery false k Extra.zero) = true :=
  holdsFormFrame_build (i := .cmdQuery _) (by simp [Instr.row]) (classifyCmd_query _ _)

theorem holdsFormFrame_interval {c : Params} (h : c.legal = true) (m : Int) (k : Nat) :
    holdsFormFrame c (build Config.actInterval true k (valueExtra c (minutesByte m)))
      = true :=
  holdsFormFrame_build (i := .cmdInterval _ _) (by simp [Instr.row])
    (classifyCmd_interval h (minutesByte_le m) _)

theorem holdsFormFrame_id {c : Params} (h : c.legal = true) (n k : Nat) :
    holdsFormFrame c (build Config.actId true k (newIdExtra c (hi8 n) (lo8 n))) = true :=
  holdsFormFrame_build (i := .cmdId _ _) (by simp [Instr.row]) (classifyCmd_id h _ _ _)

/-- Everything an operation can do on an idle block: complete with a result, start a DRAIN, start a
command form, or be refused for an operand outside its domain. -/
theorem exec_op_cases {c : Params} {i : Instr} {r : OpRequest} {s : State} (hi : encode c i = .op r)
    (hs : s.Idle) :
    (i.wf s.params = true ∧ ∃ n res, exec i s = .next (complete n res s)) ∨
    (i = .drain ∧ exec i s = .next (startDrain { s with latched := .drain })) ∨
    (i.wf s.params = true ∧ ∃ a b k e, isFormName r.name = true
      ∧ (s.params.legal = true → holdsFormFrame s.params (build a b k e) = true)
      ∧ exec i s = .next (startForm r.name a b k e s)) ∨
    (i.wf s.params = false
      ∧ (exec i s = .refused .indexOutsideBuffer ∨ exec i s = .refused .negativeOperand)) := by
  cases i <;> simp only [encode, reduceCtorEq, Code.op.injEq] at hi <;> subst hi
  case checksum b x y =>
    simp only [exec, execChecksum, onPort_idle hs, Instr.wf]
    split_ifs with h
    · exact .inl ⟨h, _, _, rfl⟩
    · exact .inr (.inr (.inr ⟨by simpa using h, .inl rfl⟩))
  case validate b x y =>
    simp only [exec, execValidate, onPort_idle hs, Instr.wf]
    split_ifs with h
    · exact .inl ⟨h, _, _, rfl⟩
    · exact .inr (.inr (.inr ⟨by simpa using h, .inl rfl⟩))
  case build b x y z =>
    simp only [exec, execBuild, onPort_idle hs, Instr.wf]
    split_ifs with h
    · exact .inl ⟨h, _, _, rfl⟩
    · exact .inr (.inr (.inr ⟨by simpa using h, .inr rfl⟩))
  case drain => exact .inr (.inl ⟨rfl, by simp only [exec, execDrain, onPort_idle hs]⟩)
  case setId id addr =>
    simp only [exec, execSetId, commandForm, onPort_idle hs, Instr.wf]
    split_ifs with h h'
    · exact .inr (.inr (.inl ⟨by simp [h, h'], _, _, _, _, rfl, (holdsFormFrame_id · _ _), rfl⟩))
    · exact .inr (.inr (.inr ⟨by simp [Bool.not_eq_true _ ▸ h'], .inr rfl⟩))
    · exact .inr (.inr (.inr ⟨by simp [h], .inr rfl⟩))
  case setMode p addr =>
    simp only [exec, execSetMode, commandForm, onPort_idle hs, Instr.wf]
    split_ifs with h
    · exact .inr (.inr (.inl ⟨h, _, _, _, _, rfl, (holdsFormFrame_mode · _ _), rfl⟩))
    · exact .inr (.inr (.inr ⟨by simpa using h, .inr rfl⟩))
  case setState p addr =>
    simp only [exec, execSetState, commandForm, onPort_idle hs, Instr.wf]
    split_ifs with h
    · exact .inr (.inr (.inl ⟨h, _, _, _, _, rfl, (holdsFormFrame_state · _ _), rfl⟩))
    · exact .inr (.inr (.inr ⟨by simpa using h, .inr rfl⟩))
  case setInterval p addr =>
    simp only [exec, execSetInterval, commandForm, onPort_idle hs, Instr.wf]
    split_ifs with h
    · exact .inr (.inr (.inl ⟨h, _, _, _, _, rfl, (holdsFormFrame_interval · _ _), rfl⟩))
    · exact .inr (.inr (.inr ⟨by simpa using h, .inr rfl⟩))
  case query addr =>
    simp only [exec, execQuery, commandForm, onPort_idle hs, Instr.wf]
    split_ifs with h
    · exact .inr (.inr (.inl ⟨h, _, _, _, _, rfl, fun _ => holdsFormFrame_query _ _, rfl⟩))
    · exact .inr (.inr (.inr ⟨by simpa using h, .inr rfl⟩))
  case parse => exact .inl ⟨rfl, _, _, by simp only [exec, execParse, onPort_idle hs]; rfl⟩
  case rdDevid => exact .inl ⟨rfl, _, _, by simp only [exec, execRdDevid, onPort_idle hs]; rfl⟩
  case rdMode => exact .inl ⟨rfl, _, _, by simp only [exec, execRdMode, onPort_idle hs]; rfl⟩
  case rdPower => exact .inl ⟨rfl, _, _, by simp only [exec, execRdPower, onPort_idle hs]; rfl⟩
  case rdInterval => exact .inl ⟨rfl, _, _, by simp only [exec, execRdInterval, onPort_idle hs]; rfl⟩
  case rdPm25 => exact .inl ⟨rfl, _, _, by simp only [exec, execRdPm25, onPort_idle hs]; rfl⟩
  case rdPm10 => exact .inl ⟨rfl, _, _, by simp only [exec, execRdPm10, onPort_idle hs]; rfl⟩

/-! The scanner. -/

theorem testStep_go {s : State} (h : 10 ≤ s.rxq.length) :
    testStep s = { s with phase := .scan } := if_pos h

theorem testStep_done {s : State} (h : s.rxq.length < 10) : testStep s = completeDrain s :=
  if_neg (by unfold tpAvail; omega)

theorem scanStep_drop {s : State} {b : Byte} {q : List Byte} (hq : s.rxq = b :: q) (hb : b ≠ Config.headByte) :
    scanStep s = { s with rxq := q } := by
  simp [scanStep, tpPeek, hq, hb, tpDiscard]

theorem scanStep_found {s : State} (h : s.rxq = [] ∨ s.rxq.head? = some Config.headByte) :
    scanStep s = { s with phase := if 10 ≤ s.rxq.length then .read else .test } := by
  rcases h with h | h
  · simp [scanStep, tpPeek, h, scanFound, tpAvail]
  · simp [scanStep, tpPeek, h, scanFound, tpAvail]; rfl

theorem seg_cons_ne {b : Byte} {t : List Byte} (h : b ≠ Config.headByte) : seg (b :: t) = seg t := by
  rw [seg.eq_def]; simp only [if_neg h]

theorem seg_frame {f : InFrame} (h : f.head = Config.headByte) (rest : List Byte) :
    seg (f.bytes ++ rest) = f :: seg rest := by
  obtain ⟨b0, b1, b2, b3, b4, b5, b6, b7, b8, b9⟩ := f
  simp only at h
  simp [InFrame.bytes, seg, h]

theorem seg_short {l : List Byte} (h : l.length < 10) : seg l = [] := by
  induction l with
  | nil => rw [seg]
  | cons b t ih =>
    rw [seg.eq_def]
    simp only
    split_ifs
    · split
      · simp at h; omega
      · rfl
    · exact ih (by simp at h; omega)

theorem scanResidue_ne {b : Byte} {t : List Byte} (h : b ≠ Config.headByte) :
    scanResidue (b :: t) = scanResidue t := by
  rw [scanResidue.eq_def]; simp only [if_neg h]

theorem scanResidue_frame {f : InFrame} (h : f.head = Config.headByte) (rest : List Byte) :
    scanResidue (f.bytes ++ rest) = drainResidue rest := by
  obtain ⟨b0, b1, b2, b3, b4, b5, b6, b7, b8, b9⟩ := f
  simp only at h
  simp [InFrame.bytes, h, drainResidue]
  rw [scanResidue.eq_def]; simp

theorem scanResidue_short {t : List Byte} (h : t.length < 9) :
    scanResidue (Config.headByte :: t) = Config.headByte :: t := by
  rw [scanResidue.eq_def]
  simp only [if_true]
  split
  · simp at h; omega
  · rfl

end Sys2Proof.Machine
end

