-- ==== Sys2Proof/Laws/PerInstr.lean ====
section
/-! SUPPORT. Statements made of every instruction as syntax, one lemma for each constructor. -/

/-- The format of each row (30_encoding.md R60, R78): a command frame's row encodes to nineteen bytes,
an inbound frame's to ten, both beginning with 0xAA, and an operation, selected by name, to none; whatever the parameters of 00_scope.md R6 are. -/
def Sys2Proof.Laws.EncodedForm.Statement (i : Sys2Proof.Instr) : Prop :=
  ∀ c : Sys2Proof.Params,
  (Sys2Proof.encode c i).bytes.length = (if i.row < 6 then 19 else if i.row < 15 then 10 else 0)
  ∧ (Sys2Proof.encode c i).bytes.head? = (if i.row < 15 then some 0xAA#8 else none)
  ∧ (Sys2Proof.encode c i).request.isSome = decide (15 ≤ i.row)

namespace Sys2Proof.Laws.EncodedForm

theorem cmdMode (passive : Bool) (addr : Word16) :
    Statement (.cmdMode passive addr) :=
  fun _ => ⟨rfl, rfl, rfl⟩

theorem cmdQuery (addr : Word16) : Statement (.cmdQuery addr) :=
  fun _ => ⟨rfl, rfl, rfl⟩

theorem cmdId (newId addr : Word16) : Statement (.cmdId newId addr) :=
  fun _ => ⟨rfl, rfl, rfl⟩

theorem cmdState (awake : Bool) (addr : Word16) :
    Statement (.cmdState awake addr) :=
  fun _ => ⟨rfl, rfl, rfl⟩

theorem cmdInterval (minutes : Byte) (addr : Word16) :
    Statement (.cmdInterval minutes addr) :=
  fun _ => ⟨rfl, rfl, rfl⟩

theorem cmdAny (action : Byte) (set : Bool) (extra : Extra) (addr : Word16) :
    Statement (.cmdAny action set extra addr) :=
  fun _ => ⟨rfl, rfl, rfl⟩

theorem inBadsum (c p0 p1 p2 p3 : Byte) (id : Word16) (k tail : Byte) :
    Statement (.inBadsum c p0 p1 p2 p3 id k tail) :=
  fun _ => ⟨rfl, rfl, rfl⟩

theorem inData (w2 w3 w4 w5 : Byte) (id : Word16) (tail : Byte) :
    Statement (.inData w2 w3 w4 w5 id tail) :=
  fun _ => ⟨rfl, rfl, rfl⟩

theorem inReplyMode (v0 v1 v2 : Byte) (id : Word16) (tail : Byte) :
    Statement (.inReplyMode v0 v1 v2 id tail) :=
  fun _ => ⟨rfl, rfl, rfl⟩

theorem inReplyId (v0 v1 v2 : Byte) (id : Word16) (tail : Byte) :
    Statement (.inReplyId v0 v1 v2 id tail) :=
  fun _ => ⟨rfl, rfl, rfl⟩

theorem inReplyState (v0 v1 v2 : Byte) (id : Word16) (tail : Byte) :
    Statement (.inReplyState v0 v1 v2 id tail) :=
  fun _ => ⟨rfl, rfl, rfl⟩

theorem inReplyFirmware (v0 v1 v2 : Byte) (id : Word16) (tail : Byte) :
    Statement (.inReplyFirmware v0 v1 v2 id tail) :=
  fun _ => ⟨rfl, rfl, rfl⟩

theorem inReplyInterval (v0 v1 v2 : Byte) (id : Word16) (tail : Byte) :
    Statement (.inReplyInterval v0 v1 v2 id tail) :=
  fun _ => ⟨rfl, rfl, rfl⟩

theorem inReplyOther (action v0 v1 v2 : Byte) (id : Word16) (tail : Byte) :
    Statement (.inReplyOther action v0 v1 v2 id tail) :=
  fun _ => ⟨rfl, rfl, rfl⟩

theorem inUnknown (c p0 p1 p2 p3 : Byte) (id : Word16) (tail : Byte) :
    Statement (.inUnknown c p0 p1 p2 p3 id tail) :=
  fun _ => ⟨rfl, rfl, rfl⟩

theorem checksum (buf : List Byte) (start stop : Int) :
    Statement (.checksum buf start stop) :=
  fun _ => ⟨rfl, rfl, rfl⟩

theorem validate (buf : List Byte) (start stop : Int) :
    Statement (.validate buf start stop) :=
  fun _ => ⟨rfl, rfl, rfl⟩

theorem build (action : Byte) (set : Bool) (address : Int) (extra : Extra) :
    Statement (.build action set address extra) :=
  fun _ => ⟨rfl, rfl, rfl⟩

theorem parse (buf : InFrame) : Statement (.parse buf) :=
  fun _ => ⟨rfl, rfl, rfl⟩

theorem drain : Statement (.drain) :=
  fun _ => ⟨rfl, rfl, rfl⟩

theorem setId (id : Int) (addr : Option Int) : Statement (.setId id addr) :=
  fun _ => ⟨rfl, rfl, rfl⟩

theorem setMode (passive : Bool) (addr : Option Int) :
    Statement (.setMode passive addr) :=
  fun _ => ⟨rfl, rfl, rfl⟩

theorem setState (awake : Bool) (addr : Option Int) :
    Statement (.setState awake addr) :=
  fun _ => ⟨rfl, rfl, rfl⟩

theorem setInterval (minutes : Int) (addr : Option Int) :
    Statement (.setInterval minutes addr) :=
  fun _ => ⟨rfl, rfl, rfl⟩

theorem query (addr : Option Int) : Statement (.query addr) :=
  fun _ => ⟨rfl, rfl, rfl⟩

theorem rdDevid : Statement (.rdDevid) :=
  fun _ => ⟨rfl, rfl, rfl⟩

theorem rdMode : Statement (.rdMode) :=
  fun _ => ⟨rfl, rfl, rfl⟩

theorem rdPower : Statement (.rdPower) :=
  fun _ => ⟨rfl, rfl, rfl⟩

theorem rdInterval : Statement (.rdInterval) :=
  fun _ => ⟨rfl, rfl, rfl⟩

theorem rdPm25 : Statement (.rdPm25) :=
  fun _ => ⟨rfl, rfl, rfl⟩

theorem rdPm10 : Statement (.rdPm10) :=
  fun _ => ⟨rfl, rfl, rfl⟩

end Sys2Proof.Laws.EncodedForm
end

