-- ==== Sys2Proof/Laws/Step.lean ====
section
/-! SUPPORT. Once, what a step can do: whose turn it is, what the environment's turns make of the state,
and every micro-step of BLOCK with its guard (00_scope.md R7, 43_scanner.md R120 to R127). -/

namespace Sys2Proof.Machine

/-! Turns. -/

theorem afterTurn_quiet {s : State} (h : s.quiet) : s.afterTurn = s := by
  obtain ⟨ha, hl⟩ := h
  unfold State.afterTurn
  rw [ha, hl, nextTurn_block, ← ha, ← hl]

theorem blocksTurn_iff {s : State} : s.blocksTurn = true ↔ s.turn = .block := decide_eq_true_iff

theorem blocksTurn_quiet {s : State} (h : s.quiet) : s.blocksTurn = true := by
  rw [blocksTurn_iff, State.turn, h.1, h.2]; rfl

/-- On BLOCK's turn a step is one micro-step. -/
theorem step_block {s : State} (h : s.blocksTurn = true) : step s = blockStep s.afterTurn := by
  unfold step takeTurn
  rw [blocksTurn_iff.1 h]

theorem step_rx {s : State} {b : Byte} (h : s.turn = .rx b) :
    step s = .next (linkRx b s.afterTurn) := by
  unfold step takeTurn; rw [h]

theorem step_tx {s : State} (h : s.turn = .tx) : step s = .next (linkTx s.afterTurn) := by
  unfold step takeTurn; rw [h]

theorem step_host {s : State} {r : OpRequest} (h : s.turn = .host r) :
    step s = .next (hostRequest r s.afterTurn) := by
  unfold step takeTurn; rw [h]

theorem step_reset {s : State} (h : s.turn = .reset) : step s = .next (resetBlock s.afterTurn) := by
  unfold step takeTurn; rw [h]

/-- Everything the other agents' turns can do. -/
theorem step_env {s t : State} (hb : s.blocksTurn = false) (h : step s = .next t) :
    (∃ b, s.turn = .rx b ∧ t = linkRx b s.afterTurn)
    ∨ (s.turn = .tx ∧ t = linkTx s.afterTurn)
    ∨ (∃ r, s.turn = .host r ∧ t = hostRequest r s.afterTurn)
    ∨ (s.turn = .reset ∧ t = resetBlock s.afterTurn) := by
  rcases ht : s.turn with _ | b | _ | r | _
  · rw [blocksTurn_iff.2 ht] at hb; exact absurd hb (by simp)
  · rw [step_rx ht] at h; simp at h; exact .inl ⟨b, rfl, h.symm⟩
  · rw [step_tx ht] at h; simp at h; exact .inr (.inl ⟨rfl, h.symm⟩)
  · rw [step_host ht] at h; simp at h; exact .inr (.inr (.inl ⟨r, rfl, h.symm⟩))
  · rw [step_reset ht] at h; simp at h; exact .inr (.inr (.inr ⟨rfl, h.symm⟩))

theorem step_env_next {s : State} (hb : s.blocksTurn = false) : ∃ t, step s = .next t := by
  rcases ht : s.turn with _ | b | _ | r | _
  · rw [blocksTurn_iff.2 ht] at hb; exact absurd hb (by simp)
  · exact ⟨_, step_rx ht⟩
  · exact ⟨_, step_tx ht⟩
  · exact ⟨_, step_host ht⟩
  · exact ⟨_, step_reset ht⟩

theorem runFor_next {k : Nat} {s t : State} (h : step s = .next t) :
    runFor (k + 1) s = runFor k t := by
  simp only [runFor, h]

theorem step_quiet {s : State} (h : s.quiet) : step s = blockStep s := by
  rw [step_block (blocksTurn_quiet h), afterTurn_quiet h]

/-! The micro-steps of BLOCK. -/

theorem blockStep_idle {s : State} (h : s.Idle) : blockStep s = acceptStage s := by
  simp [blockStep, h.1, h.2]

/-- The state a served request runs on. -/
def served (hl : List OpRequest) (s : State) : State := { s with held := hl, draws := s.draws + 1 }

/-- What an idle block's turn can lead to. -/
inductive Accepted (s : State) : State → Prop
  | wait : s.held = [] → Accepted s s
  | one (hl n res) : Accepted s (complete n res (served hl s))
  | drain (hl) : Accepted s (startDrain { served hl s with latched := .drain })
  | form (hl n a b k e) : isFormName n = true →
    (s.params.legal = true → holdsFormFrame s.params (build a b k e) = true) →
    Accepted s (startForm n a b k e (served hl s))

theorem acceptStage_next {s t : State} (hs : s.Idle) (h : acceptStage s = .next t) :
    Accepted s t := by
  unfold acceptStage at h
  split at h
  · simp at h; subst h; exact .wait ‹_›
  · rename_i r rs hr
    split at h
    · rename_i i hi
      have hi' := encode_of_decodeRequest (c := s.params) hi
      have hs' : (served (pickHeld r rs (Config.servingOrder s.draws)).2 s).Idle := hs
      change exec i (served _ s) = _ at h
      rcases exec_op_cases hi' hs' with ⟨_, n, res, h'⟩ | ⟨rfl, h'⟩ | ⟨_, a, b, k, e, hf, hf', h'⟩ |
        ⟨_, h' | h'⟩ <;> rw [h'] at h <;> simp at h <;> subst h
      · exact .one _ _ _
      · exact .drain _
      · exact .form _ _ _ _ _ _ hf hf'
    · simp at h

/-- Everything a micro-step of BLOCK can do, each with its guard (R120 to R127, R140 to R142). -/
inductive Micro (s : State) : State → Prop
  | accept {t} : s.Idle → Accepted s t → Micro s t
  | send : s.phase = .idle → s.cmdBusy = true → s.stage = .send → Micro s (sendFrame s.tb s)
  | start : s.phase = .idle → s.cmdBusy = true → s.stage = .wait → Micro s (startDrain s)
  | testGo : s.phase = .test → 10 ≤ s.rxq.length → Micro s { s with phase := .scan }
  | testDone : s.phase = .test → s.rxq.length < 10 → Micro s (completeDrain s)
  | scanDrop (b q) : s.phase = .scan → s.rxq = b :: q → b ≠ Config.headByte →
    Micro s { s with rxq := q }
  | scanRead : s.phase = .scan → s.rxq.head? = some Config.headByte → 10 ≤ s.rxq.length →
    Micro s { s with phase := .read }
  | scanTest : s.phase = .scan → (s.rxq = [] ∨ s.rxq.head? = some Config.headByte) →
    s.rxq.length < 10 → Micro s { s with phase := .test }
  | read (f rest) : s.phase = .read → s.rxq = f.bytes ++ rest →
    Micro s { s with fb := f, rxq := rest, phase := .valid }
  | valid : s.phase = .valid → Micro s (validStep s)
  | apply : s.phase = .apply → ∀ {t}, exec (classifyIn s.params s.fb) s = .next t → Micro s t
  | discard : s.phase = .discard → Micro s (discardFrame s)

theorem blockStep_next {s t : State} (h : blockStep s = .next t) : Micro s t := by
  unfold blockStep at h
  split at h
  · rename_i hp
    split at h
    · rename_i hb
      split at h
      · rw [sendStage_eq] at h; simp at h; subst h; exact .send hp hb ‹_›
      · simp at h; subst h; exact .start hp hb ‹_›
    · rename_i hb
      have hi : s.Idle := ⟨hp, by simpa using hb⟩
      exact .accept hi (acceptStage_next hi h)
  · rename_i hp
    simp only [Host.Outcome.next.injEq] at h; subst h
    by_cases hl : 10 ≤ s.rxq.length
    · rw [testStep_go hl]; exact .testGo hp hl
    · rw [testStep_done (by omega)]; exact .testDone hp (by omega)
  · rename_i hp
    simp only [Host.Outcome.next.injEq] at h; subst h
    rcases hq : s.rxq with _ | ⟨b, q⟩
    · rw [scanStep_found (.inl hq), if_neg (by simp [hq])]
      exact .scanTest hp (.inl hq) (by simp [hq])
    · by_cases hb : b = Config.headByte
      · have hh : s.rxq.head? = some Config.headByte := by simp [hq, hb]
        rw [scanStep_found (.inr hh)]
        split_ifs with hl
        · exact .scanRead hp hh hl
        · exact .scanTest hp (.inr hh) (by omega)
      · rw [scanStep_drop hq hb]
        exact .scanDrop b q hp hq hb
  · rename_i hp
    unfold readStep tpReadToFb at h
    split at h
    · rename_i u hu
      split at hu
      · rename_i f rest hf
        simp at hu; subst hu
        simp at h; subst h
        exact .read f rest hp (InFrame.bytes_of_takeFrom hf)
      · simp at hu
    · simp at h
  · simp only [Host.Outcome.next.injEq] at h; subst h; exact .valid ‹_›
  · exact .apply ‹_› h
  · simp only [Host.Outcome.next.injEq] at h; subst h; exact .discard ‹_›

theorem micro_of_step {s t : State} (hb : s.blocksTurn = true) (h : step s = .next t) :
    Micro s.afterTurn t :=
  blockStep_next (by rwa [step_block hb] at h)

/-- BLOCK is refused only on a request at an idle port that is malformed or outside its domain, or in
READ below ten bytes. -/
theorem blockStep_refused {s : State} {e : Refusal} (h : blockStep s = .refused e) :
    (s.Idle ∧ ∃ r ∈ s.held, (∃ d, decodeRequest r = .error d)
      ∨ ∃ i, decodeRequest r = .ok i ∧ i.wf s.params = false)
    ∨ (s.phase = .read ∧ s.rxq.length < 10) := by
  unfold blockStep at h
  split at h
  · rename_i hp
    split at h
    · split at h
      · rw [sendStage_eq] at h
        exact absurd h (by simp)
      · exact absurd h (by simp)
    · rename_i hbz
      have hid : s.Idle := ⟨hp, by simpa using hbz⟩
      refine .inl ⟨hid, ?_⟩
      unfold acceptStage at h
      split at h
      · exact absurd h (by simp)
      · rename_i r rs hr
        obtain ⟨l, l', h1, -⟩ := pickHeld_split r rs (Config.servingOrder s.draws)
        refine ⟨(pickHeld r rs (Config.servingOrder s.draws)).1, by rw [hr, h1]; simp, ?_⟩
        split at h
        · rename_i i hdi
          refine .inr ⟨i, hdi, ?_⟩
          by_contra hw
          rcases exec_op_cases (encode_of_decodeRequest (c := s.params) hdi) (s := served _ s) hid with
            ⟨_, n, res, h'⟩ | ⟨rfl, h'⟩ | ⟨_, a, b, k, e, _, _, h'⟩ | ⟨h3, _⟩
          · exact absurd (h'.symm.trans h) (by simp)
          · exact absurd (h'.symm.trans h) (by simp)
          · exact absurd (h'.symm.trans h) (by simp)
          · exact hw h3
        · exact .inl ⟨_, ‹_›⟩
  · exact absurd h (by simp)
  · exact absurd h (by simp)
  · rename_i hp
    refine .inr ⟨hp, ?_⟩
    by_contra hl
    obtain ⟨f, rest, hf, -⟩ := InFrame.takeFrom_of_length (l := s.rxq) (by omega)
    simp [readStep, tpReadToFb, hf] at h
  · exact absurd h (by simp)
  · obtain ⟨_, _, _, _, _, _, _, _, h'⟩ := exec_inbound_frame (encode_classifyIn s.params s.fb).1 s
    exact absurd (h'.symm.trans h) (by simp)
  · exact absurd h (by simp)

end Sys2Proof.Machine
end

