-- ==== Sys2Proof/Tests/Slice0.lean ====
section
/-! SUPPORT. Tests of single steps on small states, each against a vector of spec/95_test_vectors.md or a
rule named in its comment, and for each obligation with hypotheses a state and operands that meet them
(named witness_…). -/

namespace Sys2Proof.Tests
open Sys2Proof.Machine

/-! Helpers. -/

/-- An inbound frame of zeros. -/
def zeroFrame : InFrame := ⟨0, 0, 0, 0, 0, 0, 0, 0, 0, 0⟩

/-- The decided parameters, with one value of each OPEN one, so that tests can be evaluated. -/
def loFirst : Params := { Config.params with pmOrder := .loFirst, fwReset := ⟨1, 2, 3⟩ }

/-- Parameters other than this hardware's: an offset at each end of the extra region, an action that has
no other reply, the first value byte. -/
def otherParams : Params where
  pmOrder := .hiFirst
  actFirmware := 0x09
  fwReset := ⟨1, 2, 3⟩
  extraAtValue := 14
  extraAtNewIdHi := 4
  extraAtNewIdLo := 14
  replyValueSel := 0

/-- An idle block: the values of R36, zeros where R36 says unspecified, nothing queued or held. -/
def idle : State where
  params := loFirst
  fb := zeroFrame
  tb := ⟨0, 0, 0, 0, Extra.zero, 0, 0, 0, 0⟩
  phase := .idle
  cmdBusy := false
  applied := false
  devid := 0xFFFF
  pm25 := 0
  pm10 := 0
  mode := 0
  power := 1
  interval := 0
  fw := ⟨0, 0, 0⟩
  rxq := []
  txq := []
  stage := .send
  latched := .drain
  held := []
  completions := []
  sent := []
  agenda := []
  later := .block
  draws := 1

/-- A field of the next state; none when there is no next state. -/
def after {α : Type} (o : Host.Outcome State Fault Refusal) (field : State → α) : Option α :=
  match o with
  | .next s => some (field s)
  | _ => none

/-- The refusal, if there is one. -/
def refusal (o : Host.Outcome State Fault Refusal) : Option Refusal :=
  match o with
  | .refused e => some e
  | _ => none

/-- The instruction a decoder reads; none when it rejects. -/
def read (d : Except Reject Instr) : Option Instr :=
  match d with
  | .ok i => some i
  | .error _ => none

/-- Why a decoder rejects. -/
def why (d : Except Reject Instr) : Option Reject :=
  match d with
  | .ok _ => none
  | .error e => some e

/-- The result an operation gives on port OP of the idle block. -/
def result (i : Instr) : Option (List Result) := after (exec i idle) (·.completions.map (·.result))

/-- `IN1` of 95_test_vectors.md. -/
def in1 : InFrame := ⟨0xAA, 0xC0, 0x64, 0x00, 0xC8, 0x00, 0x00, 0x00, 0x2C, 0xAB⟩
/-- `IN7`: `IN1` with a wrong checksum. -/
def in7 : InFrame := ⟨0xAA, 0xC0, 0x64, 0x00, 0xC8, 0x00, 0x00, 0x00, 0x2D, 0xAB⟩
/-- `IN8`: a Reply to Interval. -/
def in8 : InFrame := ⟨0xAA, 0xC5, 0x08, 0x01, 0x1E, 0x00, 0xA1, 0x60, 0x28, 0xAB⟩
/-- `IN14`: a right checksum under an unknown command-id. -/
def in14 : InFrame := ⟨0xAA, 0xC1, 0x01, 0x02, 0x03, 0x04, 0x05, 0x06, 0x15, 0xAB⟩
/-- Byte sequence of `E1`, the QUERY frame to 0xFFFF. -/
def e1 : List Byte :=
  [0xAA, 0xB4, 0x04, 0x00, 0, 0, 0, 0, 0, 0, 0, 0, 0, 0, 0, 0xFF, 0xFF, 0x02, 0xAB]
/-- The QUERY frame to 0xFFFF. -/
def queryFrame : CmdFrame := ⟨0xAA, 0xB4, 0x04, 0x00, Extra.zero, 0xFF, 0xFF, 0x02, 0xAB⟩

/-! Well-formedness: each check refuses an ill-formed term and accepts its boundary. -/

theorem test_wf_cmdInterval : (Instr.cmdInterval 0x1F 0).wf Config.params = false
    ∧ (Instr.cmdInterval 0x1E 0).wf Config.params = true := by decide
theorem test_wf_cmdAny : (Instr.cmdAny 0x04 false Extra.zero 0xFFFF).wf Config.params = false
    ∧ (Instr.cmdAny 0x08 true (valueExtra Config.params 0x1E) 0).wf Config.params = false
    ∧ (Instr.cmdAny 0x08 true (valueExtra Config.params 0x1F) 0).wf Config.params = true
    ∧ (Instr.cmdAny 0x02 false Extra.zero 0xFFFF).wf Config.params = true := by decide
theorem test_wf_inBadsum : (Instr.inBadsum 0xC0 0x64 0 0xC8 0 0 0x2C 0xAB).wf Config.params = false
    ∧ (Instr.inBadsum 0xC0 0x64 0 0xC8 0 0 0x2D 0xAB).wf Config.params = true := by decide
theorem test_wf_inReplyOther : (Instr.inReplyOther 0x07 0 0 0 0 0xAB).wf Config.params = false
    ∧ (Instr.inReplyOther 0x09 0 0 0 0 0xAB).wf Config.params = true := by decide
theorem test_wf_inUnknown : (Instr.inUnknown 0xC0 0 0 0 0 0 0xAB).wf Config.params = false
    ∧ (Instr.inUnknown 0xC5 0 0 0 0 0 0xAB).wf Config.params = false
    ∧ (Instr.inUnknown 0xC1 0 0 0 0 0 0xAB).wf Config.params = true := by decide
theorem test_wf_checksum : (Instr.checksum [1, 2, 3] 1 3).wf Config.params = false
    ∧ (Instr.checksum [1, 2, 3] (-1) 1).wf Config.params = false
    ∧ (Instr.checksum [1, 2, 3] 1 2).wf Config.params = true ∧ (Instr.checksum [] 1 0).wf Config.params = true := by decide
theorem test_wf_validate : (Instr.validate [1, 2, 3] 0 2).wf Config.params = false
    ∧ (Instr.validate [1, 2, 3] 1 0).wf Config.params = false ∧ (Instr.validate [1, 2, 3] (-1) 1).wf Config.params = false
    ∧ (Instr.validate [1, 2, 3] 0 1).wf Config.params = true := by decide
theorem test_wf_build : (Instr.build 4 false (-1) Extra.zero).wf Config.params = false
    ∧ (Instr.build 4 false 0 Extra.zero).wf Config.params = true := by decide
theorem test_wf_setId : (Instr.setId (-1) none).wf Config.params = false ∧ (Instr.setId 0 (some (-1))).wf Config.params = false
    ∧ (Instr.setId 0 none).wf Config.params = true := by decide
theorem test_wf_setMode : (Instr.setMode true (some (-1))).wf Config.params = false
    ∧ (Instr.setMode true none).wf Config.params = true := by decide
theorem test_wf_setState : (Instr.setState true (some (-1))).wf Config.params = false
    ∧ (Instr.setState true (some 0)).wf Config.params = true := by decide
theorem test_wf_setInterval : (Instr.setInterval 5 (some (-1))).wf Config.params = false
    ∧ (Instr.setInterval (-5) none).wf Config.params = true := by decide
theorem test_wf_query : (Instr.query (some (-1))).wf Config.params = false
    ∧ (Instr.query (some 0x12345)).wf Config.params = true := by decide

/-! Decoding: for each row a frame written out from the tables of R61, R62 and R80. -/

/-- E2. -/
theorem test_decode_cmdMode : read (decodeBytes Config.params
    [0xAA, 0xB4, 0x02, 0x01, 0x01, 0, 0, 0, 0, 0, 0, 0, 0, 0, 0, 0xFF, 0xFF, 0x02, 0xAB])
    = some (.cmdMode true 0xFFFF) := by decide
/-- E1. -/
theorem test_decode_cmdQuery : read (decodeBytes Config.params e1) = some (.cmdQuery 0xFFFF) := by decide
/-- E4. -/
theorem test_decode_cmdId : read (decodeBytes Config.params
    [0xAA, 0xB4, 0x05, 0x01, 0, 0, 0, 0, 0, 0, 0, 0, 0, 0xA0, 0x01, 0xA1, 0x60, 0xA8, 0xAB])
    = some (.cmdId 0xA001 0xA160) := by decide
/-- P9. -/
theorem test_decode_cmdState : read (decodeBytes Config.params
    [0xAA, 0xB4, 0x06, 0x01, 0x00, 0, 0, 0, 0, 0, 0, 0, 0, 0, 0, 0xFF, 0xFF, 0x05, 0xAB])
    = some (.cmdState false 0xFFFF) := by decide
/-- E3. -/
theorem test_decode_cmdInterval : read (decodeBytes Config.params
    [0xAA, 0xB4, 0x08, 0x01, 0x05, 0, 0, 0, 0, 0, 0, 0, 0, 0, 0, 0xA1, 0x60, 0x0F, 0xAB])
    = some (.cmdInterval 5 0xA160) := by decide
/-- E10: the Mode action with the set flag 0 is no `CMD.MODE`. -/
theorem test_decode_cmdAny : read (decodeBytes Config.params
    [0xAA, 0xB4, 0x02, 0x00, 0, 0, 0, 0, 0, 0, 0, 0, 0, 0, 0, 0xFF, 0xFF, 0x00, 0xAB])
    = some (.cmdAny 0x02 false Extra.zero 0xFFFF) := by decide
/-- A wrong byte 0, 1, 3, 17 or 18 is refused by its name (R61, R80). -/
theorem test_decode_cmd_rejects :
    why (decodeBytes Config.params (e1.set 0 0xAB)) = some .badHead
    ∧ why (decodeBytes Config.params (e1.set 1 0xC0)) = some .badCommand
    ∧ why (decodeBytes Config.params (e1.set 3 0x02)) = some .badSetFlag
    ∧ why (decodeBytes Config.params (e1.set 17 0x03)) = some .badChecksum
    ∧ why (decodeBytes Config.params (e1.set 18 0xAA)) = some .badTail
    ∧ why (decodeBytes Config.params (e1.take 18)) = some .badLength := by decide
/-- IN7. -/
theorem test_decode_inBadsum : read (decodeBytes Config.params
    [0xAA, 0xC0, 0x64, 0x00, 0xC8, 0x00, 0x00, 0x00, 0x2D, 0xAB])
    = some (.inBadsum 0xC0 0x64 0x00 0xC8 0x00 0x0000 0x2D 0xAB) := by decide
/-- IN2. -/
theorem test_decode_inData : read (decodeBytes Config.params
    [0xAA, 0xC0, 0xD4, 0x04, 0x3A, 0x0A, 0xA1, 0x60, 0x1D, 0xAB])
    = some (.inData 0xD4 0x04 0x3A 0x0A 0xA160 0xAB) := by decide
/-- IN9. -/
theorem test_decode_inReplyMode : read (decodeBytes Config.params
    [0xAA, 0xC5, 0x02, 0x01, 0x01, 0x00, 0xA1, 0x60, 0x05, 0xAB])
    = some (.inReplyMode 1 1 0 0xA160 0xAB) := by decide
/-- IN12. -/
theorem test_decode_inReplyId : read (decodeBytes Config.params
    [0xAA, 0xC5, 0x05, 0x00, 0x00, 0x00, 0xA0, 0x01, 0xA6, 0xAB])
    = some (.inReplyId 0 0 0 0xA001 0xAB) := by decide
/-- IN10. -/
theorem test_decode_inReplyState : read (decodeBytes Config.params
    [0xAA, 0xC5, 0x06, 0x01, 0x00, 0x00, 0xA1, 0x60, 0x08, 0xAB])
    = some (.inReplyState 1 0 0 0xA160 0xAB) := by decide
/-- IN11. -/
theorem test_decode_inReplyFirmware : read (decodeBytes Config.params
    [0xAA, 0xC5, 0x07, 0x0F, 0x07, 0x0A, 0xA1, 0x60, 0x28, 0xAB])
    = some (.inReplyFirmware 0x0F 0x07 0x0A 0xA160 0xAB) := by decide
/-- IN8. -/
theorem test_decode_inReplyInterval : read (decodeBytes Config.params
    [0xAA, 0xC5, 0x08, 0x01, 0x1E, 0x00, 0xA1, 0x60, 0x28, 0xAB])
    = some (.inReplyInterval 1 0x1E 0 0xA160 0xAB) := by decide
/-- IN13. -/
theorem test_decode_inReplyOther : read (decodeBytes Config.params
    [0xAA, 0xC5, 0x09, 0x01, 0x02, 0x03, 0xA1, 0x60, 0x10, 0xAB])
    = some (.inReplyOther 9 1 2 3 0xA160 0xAB) := by decide
/-- IN14. -/
theorem test_decode_inUnknown : read (decodeBytes Config.params
    [0xAA, 0xC1, 0x01, 0x02, 0x03, 0x04, 0x05, 0x06, 0x15, 0xAB])
    = some (.inUnknown 0xC1 1 2 3 4 0x0506 0xAB) := by decide
/-- Ten bytes without 0xAA in front are no frame of the table (R80). -/
theorem test_decode_in_rejects : why (decodeBytes Config.params
    [0x00, 0xC0, 0x64, 0x00, 0xC8, 0x00, 0x00, 0x00, 0x2C, 0xAB]) = some .badHead := by decide
/-- Byte 0 is the table word's bits 7..0 (E1 as a word). -/
theorem test_decodeTableWord : decodeTableWord 152 0xAB02FFFF00000000000000000000000004B4AA
    = some (.cmdQuery 0xFFFF) := by decide

/-! Operations are decoded from their names and the operands of R78. -/

theorem test_request_checksum : read (decodeRequest ⟨.checksum, [.bytes [1, 2], .int 0, .int 1]⟩)
    = some (.checksum [1, 2] 0 1) := by decide
theorem test_request_validate : read (decodeRequest ⟨.validate, [.bytes [1, 1], .int 0, .int 0]⟩)
    = some (.validate [1, 1] 0 0) := by decide
theorem test_request_build : read (decodeRequest
    ⟨.build, [.byte 4, .bool false, .int 0xFFFF, .bytes (List.replicate 11 0)]⟩)
    = some (.build 4 false 0xFFFF Extra.zero) := by decide
theorem test_request_parse : read (decodeRequest ⟨.parse, [.bytes in1.bytes]⟩)
    = some (.parse in1) := by decide
theorem test_request_drain : read (decodeRequest ⟨.drain, []⟩) = some .drain := by decide
theorem test_request_forms :
    read (decodeRequest ⟨.setId, [.int 5]⟩) = some (.setId 5 none)
    ∧ read (decodeRequest ⟨.setMode, [.bool true, .int 7]⟩) = some (.setMode true (some 7))
    ∧ read (decodeRequest ⟨.setState, [.bool false]⟩) = some (.setState false none)
    ∧ read (decodeRequest ⟨.setInterval, [.int 45]⟩) = some (.setInterval 45 none)
    ∧ read (decodeRequest ⟨.query, []⟩) = some (.query none) := by decide
theorem test_request_accessors :
    read (decodeRequest ⟨.rdDevid, []⟩) = some .rdDevid
    ∧ read (decodeRequest ⟨.rdMode, []⟩) = some .rdMode
    ∧ read (decodeRequest ⟨.rdPower, []⟩) = some .rdPower
    ∧ read (decodeRequest ⟨.rdInterval, []⟩) = some .rdInterval
    ∧ read (decodeRequest ⟨.rdPm25, []⟩) = some .rdPm25
    ∧ read (decodeRequest ⟨.rdPm10, []⟩) = some .rdPm10 := by decide
/-- A buffer of nine bytes is no operand of PARSE, ten extra bytes none of BUILD (R78, R104). -/
theorem test_request_rejects :
    why (decodeRequest ⟨.parse, [.bytes (in1.bytes.take 9)]⟩) = some (.badOperands .parse)
    ∧ why (decodeRequest ⟨.build, [.byte 4, .bool false, .int 0, .bytes (List.replicate 10 0)]⟩)
      = some (.badOperands .build)
    ∧ why (decodeRequest ⟨.drain, [.int 0]⟩) = some (.badOperands .drain) := by decide

/-! Codec operations on an idle block. -/

/-- K3 and K7. -/
theorem test_checksum_wraps : result (.checksum [0xFF, 0xFF, 0xFF, 0xFF, 0xFF, 0xFF] 0 5)
    = some [.u8 0xFA] ∧ result (.checksum [0x12, 0x34, 0x56] 2 1) = some [.u8 0] := by decide
/-- K8. -/
theorem test_checksum_refuses : refusal (exec (.checksum [0x12, 0x34, 0x56] 1 3) idle)
    = some .indexOutsideBuffer := by decide
/-- K10 and K11. -/
theorem test_validate : result (.validate in1.bytes 2 7) = some [.bit true]
    ∧ result (.validate in7.bytes 2 7) = some [.bit false] := by decide
/-- K15. -/
theorem test_validate_refuses : refusal (exec (.validate [1, 2, 3] 0 2) idle)
    = some .indexOutsideBuffer := by decide
/-- E3. -/
theorem test_build : result (.build 0x08 true 0xA160 (valueExtra Config.params 5)) = some [.frame
    ⟨0xAA, 0xB4, 0x08, 0x01, ⟨5, 0, 0, 0, 0, 0, 0, 0, 0, 0, 0⟩, 0xA1, 0x60, 0x0F, 0xAB⟩] := by decide
/-- E5 and E6: truncated, not saturated. -/
theorem test_build_truncates : (build 0x04 false 0x12345 Extra.zero).bytes.drop 15
    = [0x23, 0x45, 0x6C, 0xAB]
    ∧ (build 0x04 false 0x10000 Extra.zero).bytes.drop 15 = [0x00, 0x00, 0x04, 0xAB] := by decide
/-- IN2 under both byte orders. -/
theorem test_parse_data :
    parse .loFirst ⟨0xAA, 0xC0, 0xD4, 0x04, 0x3A, 0x0A, 0xA1, 0x60, 0x1D, 0xAB⟩
      = .dataReading 1236 2618 0xA160
    ∧ parse .hiFirst ⟨0xAA, 0xC0, 0xD4, 0x04, 0x3A, 0x0A, 0xA1, 0x60, 0x1D, 0xAB⟩
      = .dataReading 54276 14858 0xA160 := by decide
/-- IN15 (the checksum is tested first), IN13 and IN17 on the idle block. -/
theorem test_parse : result (.parse { in14 with checksum := 0x16 })
      = some [.parsed (.invalid .badChecksum)]
    ∧ result (.parse ⟨0xAA, 0xC5, 0x09, 0x01, 0x02, 0x03, 0xA1, 0x60, 0x10, 0xAB⟩)
      = some [.parsed (.replyAck 9 1 2 3 0xA160)]
    ∧ result (.parse zeroFrame) = some [.parsed (.invalid .unknownCommand)] := by decide

/-! DRAIN and the scanner's micro-steps. -/

/-- R120. -/
theorem test_drain : after (exec .drain { idle with applied := true }) (fun t => (t.applied, t.phase))
    = some (false, .test) := by decide
/-- S1: fewer than ten bytes complete the DRAIN with false. -/
theorem test_test_completes : after (step { idle with phase := .test })
    (fun t => (t.phase, t.completions)) = some (.idle, [⟨.drain, .bit false⟩]) := by decide
/-- S4: a byte that is not 0xAA is dropped (R122). -/
theorem test_scan_drops : after (step { idle with phase := .scan, rxq := [0x01, 0xAA] })
    (fun t => (t.phase, t.rxq)) = some (.scan, [0xAA]) := by decide
/-- S5: a head with fewer than ten bytes goes back to TEST and stays (R123). -/
theorem test_scan_keeps_short :
    after (step { idle with phase := .scan, rxq := [0xAA, 0xC0, 0x64, 0x00, 0xC8, 0x00, 0xA1] })
      (fun t => (t.phase, t.rxq.length)) = some (.test, 7) := by decide
/-- R124. -/
theorem test_read : after (step { idle with phase := .read, rxq := in1.bytes ++ [0x11] })
    (fun t => (t.fb, t.rxq, t.phase)) = some (in1, [0x11], .valid) := by decide
/-- R125, on IN8 and IN7. -/
theorem test_valid : after (step { idle with phase := .valid, fb := in8 }) (·.phase) = some .apply
    ∧ after (step { idle with phase := .valid, fb := in7 }) (·.phase) = some .discard := by decide

/-! Inbound rows: what APPLY and DISCARD do (AP1 to AP9). -/

/-- IN2 under both byte orders. -/
theorem test_inData :
    after (exec (.inData 0xD4 0x04 0x3A 0x0A 0xA160 0xAB) idle)
      (fun t => (t.pm25, t.pm10, t.devid, t.applied)) = some (1236, 2618, 0xA160, true)
    ∧ after (exec (.inData 0xD4 0x04 0x3A 0x0A 0xA160 0xAB) { idle with params := otherParams })
      (fun t => (t.pm25, t.pm10)) = some (54276, 14858) := by decide
/-- AP9: bit 0 of value1 = 3. -/
theorem test_inReplyMode : after (exec (.inReplyMode 0 3 0 0xA160 0xAB) idle)
    (fun t => (t.mode, t.devid, t.applied)) = some (1, 0xA160, true) := by decide
/-- AP5: only DEVID changes. -/
theorem test_inReplyId : after (exec (.inReplyId 0 0 0 0xA001 0xAB) idle) id
    = some { idle with devid := 0xA001, applied := true, phase := .test } := by decide
/-- AP3. -/
theorem test_inReplyState : after (exec (.inReplyState 1 0 0 0xA160 0xAB) idle)
    (fun t => (t.power, t.mode)) = some (0, 0) := by decide
/-- AP4. -/
theorem test_inReplyFirmware : after (exec (.inReplyFirmware 0x0F 0x07 0x0A 0xA160 0xAB) idle) (·.fw)
    = some ⟨0x0F, 0x07, 0x0A⟩ := by decide
/-- AP8: no clamp. -/
theorem test_inReplyInterval : after (exec (.inReplyInterval 1 0xFF 0 0xA160 0xAB) idle) (·.interval)
    = some 255 := by decide
/-- AP6. -/
theorem test_inReplyOther : after (exec (.inReplyOther 9 1 2 3 0xA160 0xAB) idle) id
    = some { idle with devid := 0xA160, applied := true, phase := .test } := by decide
/-- AP7. -/
theorem test_inBadsum : after (exec (.inBadsum 0xC0 0x64 0 0xC8 0 0 0x2D 0xAB) idle) id
    = some { idle with phase := .test } := by decide
/-- AP7. -/
theorem test_inUnknown : after (exec (.inUnknown 0xC1 1 2 3 4 0x0506 0xAB) idle) id
    = some { idle with phase := .test } := by decide
/-- AP1 through a step: the frame in `FB` at APPLY. -/
theorem test_apply_step : after (step { idle with phase := .apply, fb := in8 })
    (fun t => (t.interval, t.devid, t.phase)) = some (30, 0xA160, .test) := by decide

/-! Outbound rows and command forms. -/

/-- E2. -/
theorem test_cmdMode : after (exec (.cmdMode true 0xFFFF) idle) (·.txq) = some
    [0xAA, 0xB4, 0x02, 0x01, 0x01, 0, 0, 0, 0, 0, 0, 0, 0, 0, 0, 0xFF, 0xFF, 0x02, 0xAB] := by decide
/-- E1, behind what is queued already. -/
theorem test_cmdQuery : after (exec (.cmdQuery 0xFFFF) { idle with txq := [0x55] }) (·.txq)
    = some (0x55 :: e1) := by decide
/-- E4. -/
theorem test_cmdId : after (exec (.cmdId 0xA001 0xA160) idle) (·.txq) = some
    [0xAA, 0xB4, 0x05, 0x01, 0, 0, 0, 0, 0, 0, 0, 0, 0, 0xA0, 0x01, 0xA1, 0x60, 0xA8, 0xAB] := by
  decide
/-- P9. -/
theorem test_cmdState : after (exec (.cmdState false 0xFFFF) idle) (·.txq) = some
    [0xAA, 0xB4, 0x06, 0x01, 0x00, 0, 0, 0, 0, 0, 0, 0, 0, 0, 0, 0xFF, 0xFF, 0x05, 0xAB] := by decide
/-- E3. -/
theorem test_cmdInterval : after (exec (.cmdInterval 5 0xA160) idle) (·.txq) = some
    [0xAA, 0xB4, 0x08, 0x01, 0x05, 0, 0, 0, 0, 0, 0, 0, 0, 0, 0, 0xA1, 0x60, 0x0F, 0xAB] := by decide
/-- E9. -/
theorem test_cmdAny : after (exec (.cmdAny 0x63 false Extra.zero 0xFFFF) idle) (·.txq) = some
    [0xAA, 0xB4, 0x63, 0x00, 0, 0, 0, 0, 0, 0, 0, 0, 0, 0, 0, 0xFF, 0xFF, 0x61, 0xAB] := by decide
/-- R143: E4 by the command form; DEVID is not written. -/
theorem test_setId : after (exec (.setId 0xA001 (some 0xA160)) idle)
    (fun t => (t.tb.bytes.drop 13, t.devid, t.cmdBusy))
    = some ([0xA0, 0x01, 0xA1, 0x60, 0xA8, 0xAB], 0xFFFF, true) := by decide
theorem test_setId_refuses : refusal (exec (.setId (-1) none) idle) = some .negativeOperand := by
  decide
/-- R144: E2 by the command form; MODE is not written. -/
theorem test_setMode : after (exec (.setMode true none) idle) (fun t => (t.tb.bytes, t.mode))
    = some ([0xAA, 0xB4, 0x02, 0x01, 0x01, 0, 0, 0, 0, 0, 0, 0, 0, 0, 0, 0xFF, 0xFF, 0x02, 0xAB], 0) := by
  decide
/-- R145 and P9. -/
theorem test_setState : after (exec (.setState false none) idle) (fun t => (t.tb.bytes, t.power))
    = some ([0xAA, 0xB4, 0x06, 0x01, 0x00, 0, 0, 0, 0, 0, 0, 0, 0, 0, 0, 0xFF, 0xFF, 0x05, 0xAB], 1) := by
  decide
/-- V4: 45 minutes clamp to 30. -/
theorem test_setInterval_clamps : after (exec (.setInterval 45 none) idle) (·.tb.bytes)
    = some [0xAA, 0xB4, 0x08, 0x01, 0x1E, 0, 0, 0, 0, 0, 0, 0, 0, 0, 0, 0xFF, 0xFF, 0x25, 0xAB] := by
  decide
/-- V4 and R146: 0 and a negative value both encode 0. -/
theorem test_setInterval_zero : after (exec (.setInterval 0 none) idle) (·.tb.checksum) = some 0x07
    ∧ after (exec (.setInterval (-3) none) idle) (·.tb.checksum) = some 0x07 := by decide
/-- E1 by the command form. -/
theorem test_query : after (exec (.query none) idle) (fun t => (t.tb.bytes, t.txq)) = some (e1, []) := by
  decide
/-- Stage 2 through a step: `TB` goes to TXQ (R141). -/
theorem test_stage_two : after (step { idle with cmdBusy := true, latched := .query, tb := queryFrame })
    (fun t => (t.txq, t.stage)) = some (e1, .wait) := by decide
/-- The request made while busy is held (R8). -/
theorem test_busy_holds : after (exec .rdMode { idle with phase := .scan })
    (fun t => (t.held, t.completions)) = some ([⟨.rdMode, []⟩], []) := by decide

/-! Accessors after reset (R150 to R155) and on a state of our own. -/

theorem test_rdDevid : result .rdDevid = some [.u16 0xFFFF] := by decide
theorem test_rdMode : result .rdMode = some [.bit false]
    ∧ after (exec .rdMode { idle with mode := 1 }) (·.completions)
      = some [⟨.rdMode, .bit true⟩] := by decide
theorem test_rdPower : result .rdPower = some [.bit true]
    ∧ after (exec .rdPower { idle with power := 0 }) (·.completions)
      = some [⟨.rdPower, .bit false⟩] := by decide
theorem test_rdInterval : after (exec .rdInterval { idle with interval := 30 }) (·.completions)
    = some [⟨.rdInterval, .u8 30⟩] := by decide
theorem test_rdPm25 : after (exec .rdPm25 { idle with pm25 := 1236, pm10 := 2618 }) (·.completions)
    = some [⟨.rdPm25, .tenths 1236⟩] := by decide
theorem test_rdPm10 : after (exec .rdPm10 { idle with pm25 := 1236, pm10 := 2618 }) (·.completions)
    = some [⟨.rdPm10, .tenths 2618⟩] := by decide

/-! Reset and the placing of a table word. -/

/-- A reset machine serves RD.POWER with the reset value (R36, R152). -/
theorem test_reset_power : after (exec .rdPower State.reset) (·.completions)
    = some [⟨.rdPower, .bit true⟩] := by decide
/-- The placed QUERY frame is what the next step writes. -/
theorem test_withFetchWord_cmd :
    after (step (State.reset.withFetchWord 152 0xAB02FFFF00000000000000000000000004B4AA)) (·.txq)
      = some e1 := by decide
/-- The placed IN8 frame is what the next step applies. -/
theorem test_withFetchWord_in :
    after (step (State.reset.withFetchWord 80 0xAB2860A1001E0108C5AA)) (·.interval) = some 30 := by
  decide

/-! Witnesses: a concrete state and operands that meet the hypotheses of each obligation that has any,
at the boundary values of its clauses. -/

theorem witness_Idle : idle.Idle ∧ State.reset.Idle := ⟨⟨rfl, rfl⟩, ⟨rfl, rfl⟩⟩

theorem witness_idle_Inv : idle.Inv := by constructor <;> decide

theorem witness_DecodeOfEncodeIsTheInstruction : Config.params.legal = true ∧ (Instr.cmdInterval 0x1E 0).wf Config.params = true
    ∧ (Instr.checksum [1, 2, 3] 0 2).wf Config.params = true ∧ (Instr.inReplyOther 9 0 0 0 0 0).wf Config.params = true := by decide

theorem witness_EncodeOfDecodedBytesIsTheBytes :
    decodeBytes Config.params e1 = .ok (.cmdQuery 0xFFFF)
    ∧ decodeBytes Config.params in8.bytes = .ok (.inReplyInterval 1 0x1E 0 0xA160 0xAB) := ⟨rfl, rfl⟩

theorem witness_ChecksumReturnsTheSum : idle.Idle ∧ (2 : Int) > 1
    ∧ ((0 : Int) ≤ 0 ∧ (0 : Int) ≤ 2 ∧ (2 : Int) < ([1, 2, 3] : List Byte).length)
    ∧ ((0 : Int) ≤ 3 ∧ (([1, 2, 3] : List Byte).length : Int) ≤ 3) ∧ (-1 : Int) < 0 := by decide

theorem witness_ChecksumLaws :
    ([1, 2, 3, 4] : List Byte).Perm [4, 3, 2, 1]
    ∧ (([1, 2, 3, 4] : List Byte).drop 0).take (3 + 1 - 0) = [1, 2, 3, 4]
    ∧ (([4, 3, 2, 1] : List Byte).drop 0).take (3 + 1 - 0) = [4, 3, 2, 1]
    ∧ ([1, 2, 3, 4] : List Byte)[0]? = some 1 ∧ ([1, 2, 3, 4] : List Byte)[3]? = some 4 := by decide

theorem witness_ValidateComparesTheStoredByte : idle.Idle
    ∧ ((0 : Int) ≤ 0 ∧ (0 : Int) ≤ 1 ∧ (1 : Int) + 1 < ([1, 2, 3] : List Byte).length)
    ∧ (([1, 2, 3] : List Byte).length : Int) ≤ 2 + 1 ∧ (0 : Int) < 1 ∧ (-1 : Int) < 0 := by decide

theorem witness_DrainStarts : idle.Idle
    ∧ { idle with cmdBusy := true, stage := .wait }.blocksTurn = true
    ∧ { idle with cmdBusy := true, stage := .wait }.phase = .idle := by decide

theorem witness_BuiltFramesValidate : idle.Idle := by decide

theorem witness_AccessorsReturnTheirRegister : idle.Idle := by decide

theorem witness_ReadingsAreTenths : { idle with pm25 := 0xFFFF }.Idle := by decide

theorem witness_WellFormedInstructionsComplete : (Instr.parse in7).wf idle.params = true := by decide

theorem witness_BuildReturnsTheFrame : idle.Idle ∧ (0 : Int) ≤ 0 := by decide

theorem witness_BuildTruncatesTheAddress : idle.Idle ∧ (0 : Int) ≤ 65536 ∧ (-1 : Int) < 0 := by decide

theorem witness_ParseReturnsTheTaggedResult : idle.Idle ∧ inboundSumHolds in7 = false
    ∧ (inboundSumHolds in1 = true ∧ in1.commandId = 0xC0)
    ∧ (inboundSumHolds in8 = true ∧ in8.commandId = 0xC5)
    ∧ (inboundSumHolds in14 = true ∧ in14.commandId ≠ 0xC0 ∧ in14.commandId ≠ 0xC5) := by decide

theorem witness_OneByteErrorIsDetected : inboundSumHolds in1 = true
    ∧ in1.bytes[2]? ≠ some 0x65 ∧ in1.bytes[8]? ≠ some 0x2D
    ∧ { in1 with p0 := 0x65 }.bytes = in1.bytes.set 2 0x65
    ∧ in7.bytes = in1.bytes.set 8 0x2D := by decide

theorem witness_TestIsTheLoopCondition :
    { idle with phase := .test }.blocksTurn = true
    ∧ 10 ≤ { idle with phase := .test, rxq := in1.bytes }.rxq.length
    ∧ { idle with phase := .test, rxq := in1.bytes.take 9 }.rxq.length < 10 := by decide

theorem witness_ScanResynchronises :
    { idle with phase := .scan, agenda := [.block] }.blocksTurn = true
    ∧ (0xAB : Byte) ≠ 0xAA ∧ (in1.bytes.head? : Option Byte) = some 0xAA := by decide

theorem witness_ReadTakesTenBytes : { idle with phase := .read, rxq := in1.bytes }.Inv
    ∧ { idle with phase := .read, rxq := in1.bytes }.blocksTurn = true := by
  refine ⟨?_, rfl⟩
  constructor <;> decide

theorem witness_ValidChoosesApplyOrDiscard :
    { idle with phase := .valid, fb := in1 }.blocksTurn = true := by decide

theorem witness_ReplyFramesAreLatched : idle.params.legal = true
    ∧ (Instr.inReplyOther 9 1 2 3 0xA160 0xAB).wf idle.params = true := by decide

theorem witness_InvalidFramesAreDiscarded :
    { idle with phase := .discard, fb := in7 }.blocksTurn = true := by decide

theorem witness_CommandForms : idle.Idle ∧ idle.params.legal = true ∧ idle.blocksTurn = true ∧ (0 : Int) ≤ 0 ∧ (-1 : Int) < 0
    ∧ (0 : Int) ≤ (none : Option Int).getD 0xFFFF ∧ (some (-1) : Option Int).getD 0xFFFF < 0 := by decide

/-- A negative id, and a negative address, are the two clauses of SETID's refusal. -/
theorem witness_SetIdBuildsAndSends_refused : idle.Idle
    ∧ ((-1 : Int) < 0 ∧ (0 : Int) ≤ (none : Option Int).getD 0xFFFF)
    ∧ ((0 : Int) ≤ 0 ∧ (some (-1) : Option Int).getD 0xFFFF < 0)
    ∧ refusal (exec (.setId 0 (some (-1))) idle) = some .negativeOperand := by decide

theorem witness_StageTwoWritesTb : { idle with cmdBusy := true, tb := queryFrame }.blocksTurn = true
    ∧ { idle with cmdBusy := true, tb := queryFrame }.stage = .send := by decide

theorem witness_DelayAdmitsArrivals :
    let s := { idle with cmdBusy := true, stage := .wait, agenda := [.rx 1, .tx, .rx 2] }
    turnsAhead 4 s.agenda s.later = [.rx 1, .tx, .rx 2] ++ [.block]
    ∧ s.phase = .idle ∧ s.stage = .wait := by decide

theorem witness_DelayAdmitsArrivals_empty :
    turnsAhead 1 idle.agenda idle.later = [] ++ [.block] := by decide

theorem witness_BusyPortHoldsRequests : encode idle.params .rdMode = .op ⟨.rdMode, []⟩
    ∧ ¬ { idle with phase := .test }.Idle ∧ ¬ { idle with cmdBusy := true }.Idle := by decide

theorem witness_IdlePortServesOneRequest :
    { idle with held := [⟨.drain, []⟩, ⟨.rdMode, []⟩] }.blocksTurn = true
    ∧ { idle with held := [⟨.drain, []⟩, ⟨.rdMode, []⟩] }.held ≠ [] := by decide

theorem witness_IdleBlockWaits : idle.blocksTurn = true ∧ idle.held = [] := by decide

theorem witness_OnlyDomainErrorsAreRefused :
    encode idle.params (.checksum [1] 0 1) = .op ⟨.checksum, [.bytes [1], .int 0, .int 1]⟩
    ∧ (Instr.checksum [1] 0 1).wf idle.params = false ∧ (Instr.checksum [1] 0 0).wf idle.params = true := by decide

theorem witness_StepRunsTheDecodedInstruction_apply :
    { idle with phase := .apply, fb := in8 }.Inv
    ∧ decodeBytes idle.params in8.bytes = .ok (.inReplyInterval 1 0x1E 0 0xA160 0xAB) := by
  refine ⟨?_, rfl⟩
  constructor <;> decide

theorem witness_StepRunsTheDecodedInstruction_discard :
    { idle with phase := .discard, fb := in7 }.Inv
    ∧ decodeBytes idle.params in7.bytes = .ok (.inBadsum 0xC0 0x64 0 0xC8 0 0 0x2D 0xAB) := by
  refine ⟨?_, rfl⟩
  constructor <;> decide

theorem witness_StepRunsTheDecodedInstruction_send :
    { idle with cmdBusy := true, latched := .query, tb := queryFrame }.Inv
    ∧ decodeBytes idle.params queryFrame.bytes = .ok (.cmdQuery 0xFFFF) := by
  refine ⟨?_, rfl⟩
  constructor <;> decide

theorem witness_StepRunsTheDecodedInstruction_request :
    { idle with held := [⟨.rdMode, []⟩] }.Inv ∧ decode idle.params (.op ⟨.rdMode, []⟩) = .ok .rdMode := by
  refine ⟨?_, rfl⟩
  constructor <;> decide

theorem witness_EnvironmentTurns :
    { idle with agenda := [.rx 5] }.turn = .rx 5
    ∧ ({ idle with agenda := [.tx] }.turn = .tx ∧ idle.txq = [])
    ∧ { idle with agenda := [.tx], txq := [1, 2] }.txq = 1 :: [2]
    ∧ { idle with agenda := [.host ⟨.rdMode, []⟩] }.turn = .host ⟨.rdMode, []⟩
    ∧ { idle with agenda := [.reset, .block] }.turn = .reset
    ∧ { idle with later := .cycle .tx [.block] }.turn = .tx := by decide

theorem witness_EnvironmentTurns_free : State.reset.agenda = [] ∧ State.reset.later = .free 0 :=
  ⟨rfl, rfl⟩

/-- A HOST turn at an idle block holds the request, and BLOCK's next turn serves it (R8; log 9). -/
theorem witness_EnvironmentTurns_host :
    after (step { idle with agenda := [.host ⟨.rdMode, []⟩] }) (·.held) = some [⟨.rdMode, []⟩]
    ∧ after (step { idle with held := [⟨.rdMode, []⟩] }) (·.completions.map (·.result))
      = some [.bit false] := by decide

theorem witness_ResetEvent : { idle with agenda := [.reset, .block] }.turn = .reset := rfl

theorem witness_InvariantIsKeptByEveryStep : idle.Inv ∧ ∃ t, step idle = .next t :=
  ⟨witness_idle_Inv, _, rfl⟩

theorem witness_OnlyApplyWritesResultRegisters :
    ∃ t, step { idle with phase := .apply, fb := in8 } = .next t ∧ t.interval ≠ idle.interval :=
  ⟨_, rfl, by decide⟩

theorem witness_AppliedFlagRule :
    (∃ t, step { idle with phase := .apply, fb := in8 } = .next t ∧ t.applied ≠ idle.applied)
    ∧ (∃ t, step { idle with applied := true, cmdBusy := true, stage := .wait } = .next t
      ∧ t.applied ≠ true)
    ∧ (∃ t, step { idle with applied := true, agenda := [.reset] } = .next t ∧ t.applied ≠ true) :=
  ⟨⟨_, rfl, by decide⟩, ⟨_, rfl, by decide⟩, ⟨_, rfl, by decide⟩⟩

theorem witness_RxqIsFirstInFirstOut :
    (∃ t, step { idle with agenda := [.rx 5] } = .next t ∧ t.rxq = [5])
    ∧ (∃ t, step { idle with phase := .scan, rxq := [1, 2] } = .next t ∧ t.rxq = [2])
    ∧ (∃ t, step { idle with phase := .read, rxq := in1.bytes } = .next t ∧ t.rxq = []) :=
  ⟨⟨_, rfl, rfl⟩, ⟨_, rfl, rfl⟩, ⟨_, rfl, rfl⟩⟩

theorem witness_TxqIsFirstInFirstOut :
    (∃ t, step { idle with cmdBusy := true, tb := queryFrame } = .next t ∧ t.txq = e1)
    ∧ (∃ t, step { idle with agenda := [.tx], txq := [1, 2] } = .next t ∧ t.txq = [2] ∧ t.sent = [1]) :=
  ⟨⟨_, rfl, rfl⟩, ⟨_, rfl, rfl, rfl⟩⟩

theorem witness_OnlyRequestsAreRefused_domain :
    { idle with held := [⟨.checksum, [.bytes [], .int 0, .int 0]⟩] }.Inv
    ∧ step { idle with held := [⟨.checksum, [.bytes [], .int 0, .int 0]⟩] }
      = .refused .indexOutsideBuffer := by
  refine ⟨?_, rfl⟩
  constructor <;> decide

theorem witness_OnlyRequestsAreRefused_malformed :
    { idle with held := [⟨.drain, [.int 0]⟩] }.Inv
    ∧ step { idle with held := [⟨.drain, [.int 0]⟩] } = .refused .malformedRequest := by
  refine ⟨?_, rfl⟩
  constructor <;> decide

theorem witness_SegmentationIsScheduleFree :
    { idle with phase := .read, rxq := in1.bytes }.Inv
    ∧ (∃ t, step { idle with phase := .read, rxq := in1.bytes } = .next t)
    ∧ seg in1.bytes = [in1] := by
  refine ⟨?_, ⟨_, rfl⟩, rfl⟩
  constructor <;> decide

theorem witness_DrainRunsToCompletion :
    { idle with phase := .test, rxq := in1.bytes ++ in8.bytes }.quiet
    ∧ seg (in1.bytes ++ in8.bytes) = [in1, in8] := ⟨⟨rfl, rfl⟩, rfl⟩

theorem witness_CommandFormRunsItsFourStages : idle.quiet ∧ idle.Idle
    ∧ (Instr.setInterval 45 none).wf idle.params = true
    ∧ encode idle.params (.setInterval 45 none) = .op ⟨.setInterval, [.int 45]⟩
    ∧ isFormName .setInterval = true := by decide

theorem witness_DrainBelowTenBytesDoesNothing :
    { idle with rxq := in1.bytes.take 9 }.Idle ∧ idle.blocksTurn = true
    ∧ { idle with rxq := in1.bytes.take 9 }.rxq.length < 10 := by decide

theorem witness_InvalidFrameChangesOnlyRxqAndFb : idle.quiet
    ∧ in7.bytes = { idle with phase := .read, rxq := in7.bytes }.rxq.take 10
    ∧ isInvalid (parse idle.params.pmOrder in7) = true := ⟨⟨rfl, rfl⟩, rfl, rfl⟩

theorem witness_SegmentationIsScheduleFree_arrivals :
    { idle with rxq := [0x01], agenda := [.rx 0xAA], later := .cycle (.rx 2) [.block] }.stream 4
      = [0x01, 0xAA, 2, 2] := by decide

theorem witness_ParametersAreArguments : Config.params.legal = true ∧ otherParams.legal = true
    ∧ { otherParams with extraAtValue := 15 }.legal = false
    ∧ { otherParams with extraAtNewIdHi := 14 }.legal = false
    ∧ { otherParams with actFirmware := 0x08 }.legal = false := by decide

/-- A step at other parameters: the frame of SETMODE has its value at byte 14, and a Reply to action 9
writes the firmware register (R6, R128, R144). -/
theorem test_otherParams_step :
    after (exec (.setMode true none) { idle with params := otherParams }) (·.tb.bytes.drop 13)
      = some [0x00, 0x01, 0xFF, 0xFF, 0x02, 0xAB]
    ∧ after (step { idle with
        params := otherParams, phase := .apply, fb := ⟨0xAA, 0xC5, 9, 7, 8, 9, 0, 0, 0x21, 0xAB⟩ })
      (·.fw) = some ⟨7, 8, 9⟩
    ∧ after (exec (.inReplyInterval 7 8 9 0 0xAB) { idle with params := otherParams }) (·.interval)
      = some 7 := by decide
/-- RESET gives `FW` the parameter `FW_RESET` (R30). -/
theorem test_reset_fw : after (step { idle with agenda := [.reset] }) (·.fw) = some ⟨1, 2, 3⟩ := by
  decide

theorem witness_WrittenSequenceGrowsAtStageTwo :
    after (step { idle with cmdBusy := true, tb := queryFrame, sent := [7] }) (·.observe.written)
      = some (7 :: e1)
    ∧ after (step { idle with txq := [1, 2], sent := [7], agenda := [.tx] }) (·.observe.written)
      = some [7, 1, 2] := by decide

theorem witness_RunThatIsOverStaysOver : idle.runOver
    ∧ { idle with agenda := [.rx 5, .tx, .reset] }.runOver
    ∧ ¬ { idle with agenda := [.host ⟨.drain, []⟩] }.runOver ∧ ¬ { idle with phase := .test }.runOver
    ∧ ¬ { idle with held := [⟨.drain, []⟩] }.runOver := by decide

theorem witness_BuffersAreNotObservable :
    ¬ (idle.phase = .valid ∨ idle.phase = .apply ∨ idle.phase = .discard)
    ∧ idle.cmdBusy = false ∧ in1 ≠ idle.fb ∧ queryFrame ≠ idle.tb := by decide

theorem witness_OperationsCompleteWhenArrivalsEnd :
    { idle with phase := .scan, agenda := [.rx 5, .host ⟨.drain, []⟩, .tx] }.Inv
    ∧ ¬ { idle with phase := .scan }.Idle
    ∧ envSettles [.rx 5, .host ⟨.drain, []⟩, .tx] .block = true
    ∧ envSettles [.rx 5] (.cycle .tx [.block]) = true
    ∧ envSettles [.reset] .block = false ∧ envSettles [] (.cycle (.rx 5) [.block]) = false
    ∧ envSettles [] (.cycle .tx []) = false := by
  refine ⟨?_, by decide⟩
  constructor <;> decide

theorem witness_UnendingArrivalsHoldADrain :
    let s := { idle with phase := .scan, rxq := [1], later := .cycle (.rx 2) [.block] }
    s.phase = .scan ∧ (∀ x ∈ s.rxq, x ≠ 0xAA) ∧ s.agenda = []
    ∧ s.later = .cycle (.rx 2) [.block] := by decide

end Sys2Proof.Tests
end

section
/-! Proofs, the scope family (00_scope.md): decoding what the encoder writes (R61, R62, R78, R80). -/

namespace Sys2Proof
open Sys2Proof.Machine

/-! Each format read back from its encoding. -/

theorem decodeAddr_addrOperands (n : OpName) (addr : Option Int) :
    decodeAddr n (addrOperands addr) = .ok addr := by
  cases addr <;> rfl

/-- A request is read back as the operation whose encoding it is (R78). -/
theorem decodeRequest_of_encode {c : Params} {i : Instr} {r : OpRequest}
    (h : encode c i = .op r) : decodeRequest r = .ok i := by
  cases i <;> simp only [encode, reduceCtorEq, Code.op.injEq] at h <;> subst h
  case setId | setMode | setState | setInterval | query =>
    simp only [decodeRequest, decodeAddr_addrOperands, Except.map]
  case build => simp only [decodeRequest, Extra.ofBytes_bytes]
  case parse => simp only [decodeRequest, InFrame.ofBytes_bytes]
  all_goals rfl

/-- A command frame is read back as the row whose encoding it is (R61). -/
theorem decodeCmd_of_encode {c : Params} {i : Instr} {f : CmdFrame} (hc : c.legal = true)
    (hw : i.wf c = true) (h : encode c i = .cmd f) : decodeCmd c f = .ok i := by
  cases i <;> simp only [encode, reduceCtorEq, Code.cmd.injEq] at h <;> subst h <;>
    rw [decodeCmd_cmdTo]
  case cmdMode => rw [classifyCmd_mode hc]
  case cmdQuery => rw [classifyCmd_query]
  case cmdId => rw [classifyCmd_id hc, join16_hi8_lo8]
  case cmdState => rw [classifyCmd_state hc]
  case cmdInterval => rw [classifyCmd_interval hc (of_decide_eq_true hw)]
  case cmdAny => rw [classifyCmd_of_not_named (by simpa [Instr.wf] using hw)]

theorem replyId_ne_dataId : Config.replyId ≠ Config.dataId := by decide

/-- A frame with the right sum is classified by its bytes 1 and 2 alone (R80). -/
theorem decodeIn_inboundFrame (c : Params) (k p0 p1 p2 p3 : Byte) (id : Word16) (tail : Byte) :
    decodeIn c (inboundFrame k p0 p1 p2 p3 id tail) = .ok
      (if k = Config.dataId then .inData p0 p1 p2 p3 id tail
      else if k = Config.replyId then
        if p0 = Config.actMode then .inReplyMode p1 p2 p3 id tail
        else if p0 = Config.actId then .inReplyId p1 p2 p3 id tail
        else if p0 = Config.actState then .inReplyState p1 p2 p3 id tail
        else if p0 = c.actFirmware then .inReplyFirmware p1 p2 p3 id tail
        else if p0 = Config.actInterval then .inReplyInterval p1 p2 p3 id tail
        else .inReplyOther p0 p1 p2 p3 id tail
      else .inUnknown k p0 p1 p2 p3 id tail) := by
  simp [decodeIn, classifyIn, inboundFrame, InFrame.sealed]

/-- A frame with a wrong sum is `IN.BADSUM`, whatever its other bytes (R111). -/
theorem decodeIn_badsum {c : Params} {k p0 p1 p2 p3 x tail : Byte} {id : Word16}
    (h : x ≠ inboundSum p0 p1 p2 p3 id) :
    decodeIn c { inboundFrame k p0 p1 p2 p3 id tail with checksum := x }
      = .ok (.inBadsum k p0 p1 p2 p3 id x tail) := by
  rw [inboundSum_eq] at h
  simp [decodeIn, classifyIn, inboundFrame, InFrame.sealed, h]

/-- An action without a row of its own, clause by clause (R73). -/
theorem namedReply_eq_false {c : Params} {a : Byte} (h : namedReply c a = false) :
    a ≠ Config.actMode ∧ a ≠ Config.actId ∧ a ≠ Config.actState ∧ a ≠ c.actFirmware
      ∧ a ≠ Config.actInterval := by
  simpa [namedReply, and_assoc] using h

/-- An inbound frame is read back as the row whose encoding it is (R62). -/
theorem decodeIn_of_encode {c : Params} {i : Instr} {f : InFrame} (hc : c.legal = true)
    (hw : i.wf c = true) (h : encode c i = .inb f) : decodeIn c f = .ok i := by
  cases i <;> simp only [encode, reduceCtorEq, Code.inb.injEq] at h <;> subst h
  case inBadsum => exact decodeIn_badsum (by simpa [Instr.wf] using hw)
  all_goals rw [decodeIn_inboundFrame]
  case inData => rfl
  case inReplyMode | inReplyId | inReplyState => rfl
  case inReplyInterval =>
    obtain ⟨-, -, -, -, -, -, -, hf⟩ := Params.legal_iff.1 hc
    exact congrArg Except.ok (if_neg hf.symm)
  case inReplyFirmware =>
    obtain ⟨-, -, -, -, hm, hi, hs, -⟩ := Params.legal_iff.1 hc
    simp [replyId_ne_dataId, hm, hi, hs]
  case inReplyOther =>
    obtain ⟨hm, hi, hs, hf, hv⟩ := namedReply_eq_false (by simpa [Instr.wf] using hw)
    simp [replyId_ne_dataId, hm, hi, hs, hf, hv]
  case inUnknown =>
    obtain ⟨hd, hr⟩ : _ ≠ Config.dataId ∧ _ ≠ Config.replyId := by simpa [Instr.wf] using hw
    simp [hd, hr]

/-- Settles O1, format by format: the encoding's constructor selects the decoder that reads it. -/
theorem decodeOfEncodeIsTheInstruction : Obligations.DecodeOfEncodeIsTheInstruction := by
  unfold Obligations.DecodeOfEncodeIsTheInstruction
  intro c i hc hw
  cases h : encode c i with
  | cmd f => exact decodeCmd_of_encode hc hw h
  | inb f => exact decodeIn_of_encode hc hw h
  | op r => exact decodeRequest_of_encode h

end Sys2Proof
end

section
/-! Proofs, the scope family (00_scope.md): port OP, refusals and the environment's turns (R7, R8, R12). -/

namespace Sys2Proof.Machine

/-! Port OP on a busy block and on an idle one. -/

theorem hold_op {i : Instr} {r : OpRequest} {s : State} (h : encode s.params i = .op r) :
    hold i s = { s with held := s.held ++ [r] } := by
  simp [hold, h, Code.request]

/-- Every operation, and no frame, goes through port OP (R8). -/
theorem exec_op_eq_onPort {c : Params} {i : Instr} {r : OpRequest} (h : encode c i = .op r) :
    ∃ run, ∀ s, exec i s = onPort i run s := by
  cases i <;> simp only [encode, reduceCtorEq] at h <;> exact ⟨_, fun _ => rfl⟩

/-- An operation is held while the block is busy (R8). -/
theorem exec_op_busy {c : Params} {i : Instr} {r : OpRequest} {s : State}
    (h : encode c i = .op r) (hs : ¬ s.Idle) : exec i s = .next (hold i s) := by
  obtain ⟨run, hrun⟩ := exec_op_eq_onPort h
  rw [hrun, onPort_busy hs]

/-- Settles O34: the operation is held, and what is held is its request. -/
theorem busyPortHoldsRequests : Obligations.BusyPortHoldsRequests := by
  unfold Obligations.BusyPortHoldsRequests
  intro i r s h hs
  rw [exec_op_busy h hs, hold_op h]

/-- Serving the port: one held request is decoded and run, the others keep their order (R184). -/
theorem acceptStage_serves {s : State} (h : s.held ≠ []) :
    ∃ before r after, s.held = before ++ r :: after
      ∧ acceptStage s = match decodeRequest r with
        | .ok i => exec i (served (before ++ after) s)
        | .error _ => .refused .malformedRequest := by
  obtain ⟨r, rs, hr⟩ := List.exists_cons_of_ne_nil h
  obtain ⟨l, l', h1, h2⟩ := pickHeld_split r rs (Config.servingOrder s.draws)
  refine ⟨l, _, l', hr.trans h1, ?_⟩
  simp only [acceptStage, hr, h2]
  rfl

/-- Settles O35: BLOCK's turn at an idle port is the serving of one held request. -/
theorem idlePortServesOneRequest : Obligations.IdlePortServesOneRequest := by
  unfold Obligations.IdlePortServesOneRequest
  intro s hb hi hh
  have hs : step s = acceptStage s.afterTurn := by
    rw [step_block hb]
    exact blockStep_idle hi
  rw [hs]
  exact acceptStage_serves (s := s.afterTurn) hh

/-- Settles O38: of the four things an operation can do on an idle block, the refusal is the one for
operands outside the domain. -/
theorem onlyDomainErrorsAreRefused : Obligations.OnlyDomainErrorsAreRefused := by
  unfold Obligations.OnlyDomainErrorsAreRefused
  intro i r s h hs
  rcases exec_op_cases h hs with ⟨hw, n, res, he⟩ | ⟨rfl, he⟩ | ⟨hw, a, b, k, e, -, -, he⟩ | ⟨hw, he⟩
  · simp [hw, he]
  · simp [he, Instr.wf]
  · simp [hw, he]
  · simp [hw, he]

/-- Only BLOCK's turn can be refused (R160). -/
theorem blocksTurn_of_refused {s : State} {e : Refusal} (h : step s = .refused e) :
    s.blocksTurn = true := by
  by_contra hb
  obtain ⟨t, ht⟩ := step_env_next (Bool.eq_false_of_not_eq_true hb)
  rw [ht] at h
  exact absurd h (by simp)

/-- Settles O49: under the invariant READ has its ten bytes, so the refusal is the port's. -/
theorem onlyRequestsAreRefused : Obligations.OnlyRequestsAreRefused := by
  unfold Obligations.OnlyRequestsAreRefused
  intro s e hinv h
  have hb := blocksTurn_of_refused h
  rw [step_block hb] at h
  rcases blockStep_refused h with ⟨hi, r, hr, hrefused⟩ | ⟨hp, hl⟩
  · exact ⟨hb, hi, r, hr, hrefused⟩
  · have := (hinv.readReady hp).1
    rw [State.afterTurn_rxq] at hl
    omega

/-! The environment's turns. -/

theorem linkTx_cons {s : State} {b : Byte} {q : List Byte} (h : s.txq = b :: q) :
    linkTx s = { s with txq := q, sent := s.sent ++ [b] } := by
  simp [linkTx, h]

theorem linkTx_nil {s : State} (h : s.txq = []) : linkTx s = s := by
  obtain ⟨⟩ := s
  simp_all [linkTx]

/-- The schedule says whose turn it is and what remains, the listed turns first (log 5). -/
theorem turn_afterTurn_of_nextTurn {s : State} {turn : Turn} {rest : List Turn} {later : Later}
    (h : nextTurn s.agenda s.later = (turn, rest, later)) :
    s.turn = turn ∧ s.afterTurn = { s with agenda := rest, later := later } := by
  simp [State.turn, State.afterTurn, h]

/-- Settles O40: the four shapes of the schedule, then the four agents beside BLOCK. -/
theorem environmentTurns : Obligations.EnvironmentTurns := by
  unfold Obligations.EnvironmentTurns
  refine ⟨fun s turn rest h => ?_, fun s h => ⟨fun hl => ?_, fun first rest hl => ?_, fun k hl => ?_⟩,
    fun s => ⟨fun b h => step_rx h, fun b q h hq => ?_, fun h hq => ?_, fun r h => step_host h,
      fun h => ⟨_, step_reset h, rfl, rfl, rfl⟩⟩⟩
  · exact turn_afterTurn_of_nextTurn (by rw [h, nextTurn_cons])
  · obtain ⟨ht, -⟩ := turn_afterTurn_of_nextTurn (s := s) (by rw [h, hl, nextTurn_block])
    exact ⟨ht, afterTurn_quiet ⟨h, hl⟩⟩
  · obtain ⟨ht, hs⟩ := turn_afterTurn_of_nextTurn (s := s) (by rw [h, hl, nextTurn_cycle])
    exact ⟨ht, by rw [hs, ← hl]⟩
  · obtain ⟨ht, hs⟩ := turn_afterTurn_of_nextTurn (s := s) (by rw [h, hl, nextTurn_free])
    exact ⟨ht, by rw [hs, ← h]⟩
  · rw [step_tx h, linkTx_cons (s := s.afterTurn) hq]; rfl
  · rw [step_tx h, linkTx_nil (s := s.afterTurn) hq]

end Sys2Proof.Machine
end

section
/-! Proofs, the scope family (00_scope.md): the parameters (R6), the bytes written (R9, R34) and the end
of a run (R9, R196). -/

namespace Sys2Proof.Machine

/-! No step changes the parameters. -/

theorem Accepted.params_eq {s t : State} (h : Accepted s t) : t.params = s.params := by
  cases h <;> rfl

theorem Micro.params_eq {s t : State} (h : Micro s t) : t.params = s.params := by
  cases h with
  | accept _ ha => exact ha.params_eq
  | apply _ he =>
    obtain ⟨_, _, _, _, _, _, _, _, h'⟩ := exec_inbound_frame (encode_classifyIn s.params s.fb).1 s
    obtain rfl := Host.Outcome.next.inj (he.symm.trans h')
    rfl
  | _ => rfl

theorem step_params {s t : State} (h : step s = .next t) : t.params = s.params := by
  cases hb : s.blocksTurn with
  | true => exact (micro_of_step hb h).params_eq
  | false => rcases step_env hb h with ⟨b, -, rfl⟩ | ⟨-, rfl⟩ | ⟨r, -, rfl⟩ | ⟨-, rfl⟩ <;> rfl

/-! What APPLY of a Reply writes (R128). -/

theorem replyValue_eq_selectedValue (c : Params) (v0 v1 v2 : Byte) :
    replyValue c v0 v1 v2 = selectedValue c v0 v1 v2 := by
  unfold replyValue selectedValue
  generalize c.replyValueSel = k
  fin_cases k <;> rfl

/-- A value byte's low bit is what a one-bit register keeps of it (R27, R28). -/
theorem setWidth_one_eq_one_iff (v : Byte) : v.setWidth 1 = 1#1 ↔ v.toNat % 2 = 1 := by
  rw [← BitVec.toNat_inj]
  simp

section Reply
variable (c : Params) (s : State) (v0 v1 v2 : Byte) (id : Word16)

theorem applyResult_mode : applyResult c (.replyAck Config.actMode v0 v1 v2 id) s
    = { s with devid := id, applied := true, phase := .test
               mode := (selectedValue c v0 v1 v2).setWidth 1 } := by
  rw [← replyValue_eq_selectedValue]; rfl

theorem applyResult_state : applyResult c (.replyAck Config.actState v0 v1 v2 id) s
    = { s with devid := id, applied := true, phase := .test
               power := (selectedValue c v0 v1 v2).setWidth 1 } := by
  rw [← replyValue_eq_selectedValue]; rfl

theorem applyResult_interval : applyResult c (.replyAck Config.actInterval v0 v1 v2 id) s
    = { s with devid := id, applied := true, phase := .test
               interval := selectedValue c v0 v1 v2 } := by
  rw [← replyValue_eq_selectedValue]; rfl

variable {c}

theorem applyResult_firmware (hc : c.legal = true) :
    applyResult c (.replyAck c.actFirmware v0 v1 v2 id) s
      = { s with devid := id, applied := true, phase := .test, fw := ⟨v0, v1, v2⟩ } := by
  obtain ⟨-, -, -, -, hm, -, hs, hi⟩ := Params.legal_iff.1 hc
  simp only [applyResult, latchReply, if_neg hm, if_neg hs, if_neg hi, if_true]
  rfl

theorem applyResult_otherAction {action : Byte} (hm : action ≠ Config.actMode)
    (hs : action ≠ Config.actState) (hi : action ≠ Config.actInterval) (hf : action ≠ c.actFirmware) :
    applyResult c (.replyAck action v0 v1 v2 id) s
      = { s with devid := id, applied := true, phase := .test } := by
  simp only [applyResult, latchReply, if_neg hm, if_neg hs, if_neg hi, if_neg hf]
  rfl

end Reply

/-! The extra regions byte by byte (R143 to R146). -/

theorem valueExtra_getElem? {c : Params} (hc : c.legal = true) (v : Byte) {k : Nat} (hk : k < 11) :
    (valueExtra c v).bytes[k]? = some (if k + 4 = c.extraAtValue then v else 0) := by
  simp [valueExtra_bytes hc, valueBytes, hk]

theorem newIdExtra_getElem? {c : Params} (hc : c.legal = true) (hi lo : Byte) {k : Nat} (hk : k < 11) :
    (newIdExtra c hi lo).bytes[k]? = some (if k + 4 = c.extraAtNewIdHi then hi
      else if k + 4 = c.extraAtNewIdLo then lo else 0) := by
  have hh : BitVec.ofNat 8 ((join16 hi lo).toNat / 256) = hi := by
    have := lo.isLt
    rw [toNat_join16, show (256 * hi.toNat + lo.toNat) / 256 = hi.toNat by omega]
    simp
  have hl : BitVec.ofNat 8 (join16 hi lo).toNat = lo := lo8_join16 hi lo
  have := newIdExtra_bytes hc (join16 hi lo).toNat
  rw [hi8_join16, lo8_join16] at this
  simp [this, newIdBytes, hk, hh, hl]

/-- Settles O55: reset and every step by their frames, then APPLY of a Reply action by action and the
extra regions byte by byte. -/
theorem parametersAreArguments : Obligations.ParametersAreArguments := by
  unfold Obligations.ParametersAreArguments
  refine ⟨fun c => ⟨rfl, rfl⟩, fun s t h => step_params h, fun c hc => ⟨?_, fun v hi lo k hk =>
    ⟨valueExtra_getElem? hc v hk, newIdExtra_getElem? hc hi lo hk⟩⟩, rfl, fun _ _ _ => rfl,
    fun _ => rfl, fun _ => rfl⟩
  intro s action v0 v1 v2 id v t u
  refine ⟨?_, ?_, ?_, ?_, fun hm hs hi hf => applyResult_otherAction s v0 v1 v2 id hm hs hi hf⟩
  · rintro rfl
    exact ⟨_, setWidth_one_eq_one_iff v, applyResult_mode c s v0 v1 v2 id⟩
  · rintro rfl
    exact ⟨_, setWidth_one_eq_one_iff v, applyResult_state c s v0 v1 v2 id⟩
  · rintro rfl
    exact applyResult_interval c s v0 v1 v2 id
  · rintro rfl
    exact applyResult_firmware s v0 v1 v2 id hc

/-! The bytes appended to TXQ (R9, R34). -/

/-- Stage 2 of a command form is BLOCK's next micro-step (R140). -/
abbrev State.atStageTwo (s : State) : Prop := s.phase = .idle ∧ s.cmdBusy = true ∧ s.stage = .send

theorem Accepted.written_eq {s t : State} (h : Accepted s t) : t.written = s.written := by
  cases h <;> rfl

/-- Of the micro-steps only stage 2 of a command form writes (R141). -/
theorem Micro.written_eq {s t : State} (h : Micro s t) :
    t.written = s.written ++ if s.atStageTwo then s.tb.bytes else [] := by
  cases h with
  | send hp hb hs => simp [hp, hb, hs, State.written]
  | accept hi ha => simp [ha.written_eq, hi.2]
  | start _ _ hs => simp [hs, State.written]
  | apply hp he =>
    obtain ⟨_, _, _, _, _, _, _, _, h'⟩ := exec_inbound_frame (encode_classifyIn s.params s.fb).1 s
    obtain rfl := Host.Outcome.next.inj (he.symm.trans h')
    simp [hp, State.written]
  | testGo hp | testDone hp | scanDrop _ _ hp | scanRead hp | scanTest hp | read _ _ hp | valid hp
  | discard hp => simp [hp, State.written]

/-- LINK_TX moves a byte from the queue to the record of sent bytes (R34; log 27). -/
@[simp] theorem linkTx_written (s : State) : (linkTx s).written = s.written := by
  cases h : s.txq <;> simp [State.written, h]

/-- Settles O56: a micro-step of BLOCK writes at stage 2 only, the other agents write nothing. -/
theorem writtenSequenceGrowsAtStageTwo : Obligations.WrittenSequenceGrowsAtStageTwo := by
  unfold Obligations.WrittenSequenceGrowsAtStageTwo
  intro s t h
  change t.written = s.written ++ _
  cases hb : s.blocksTurn with
  | true =>
    calc t.written
      _ = s.written ++ if s.atStageTwo then s.tb.bytes else [] := (micro_of_step hb h).written_eq
      _ = _ := congrArg _ (if_congr (by simp) rfl rfl)
  | false =>
    have ht : t.written = s.written := by
      rcases step_env hb h with ⟨b, -, rfl⟩ | ⟨-, rfl⟩ | ⟨r, -, rfl⟩ | ⟨-, rfl⟩
      · rfl
      · exact linkTx_written s.afterTurn
      · rfl
      · rfl
    simp [ht]

/-! The end of a run (R9, R196). -/

/-- Of a schedule without HOST's turns the next turn is none either, and neither are those after it. -/
theorem hostIsDone_nextTurn {agenda : List Turn} {later : Later} (h : hostIsDone agenda later = true) :
    (nextTurn agenda later).1.isHost = false
      ∧ hostIsDone (nextTurn agenda later).2.1 (nextTurn agenda later).2.2 = true := by
  cases agenda with
  | cons turn rest => simpa [hostIsDone, and_assoc] using h
  | nil => cases later <;> simp_all [hostIsDone, Turn.isHost]

theorem State.runOver.afterTurn {s : State} (h : s.runOver) : s.afterTurn.runOver :=
  ⟨h.1, (hostIsDone_nextTurn h.2).2⟩

/-- An idle block with no request waits (R182). -/
theorem step_waits {s : State} (hb : s.blocksTurn = true) (h : s.allCompleted) :
    step s = .next s.afterTurn := by
  obtain ⟨hi, hh⟩ := h
  have hh' : s.afterTurn.held = [] := hh
  rw [step_block hb, blockStep_idle (s := s.afterTurn) hi, acceptStage, hh']

/-- Settles O57: after the last completion BLOCK only waits and HOST has no turn. -/
theorem runThatIsOverStaysOver : Obligations.RunThatIsOverStaysOver := by
  unfold Obligations.RunThatIsOverStaysOver
  intro s h
  have ha := h.afterTurn
  obtain ⟨⟨hi, hh⟩, hdone⟩ := h
  have hhost : s.turn.isHost = false := (hostIsDone_nextTurn hdone).1
  rcases ht : s.turn with _ | b | _ | r | _
  · exact ⟨_, step_waits (blocksTurn_iff.2 ht) ⟨hi, hh⟩, ha, rfl, rfl, fun _ => rfl⟩
  · exact ⟨_, step_rx ht, ha, rfl, rfl, fun _ => rfl⟩
  · exact ⟨_, step_tx ht, ha, rfl, linkTx_written s.afterTurn, fun _ => rfl⟩
  · rw [ht] at hhost
    exact absurd hhost (by simp [Turn.isHost])
  · exact ⟨_, step_reset ht, ⟨⟨⟨rfl, rfl⟩, hh⟩, ha.2⟩, rfl, rfl, fun hn => absurd rfl hn⟩

end Sys2Proof.Machine
end

section
/-! Proofs, the scope family (00_scope.md): FB and TB are not observable (R9, R35). Two states that differ
only in buffer bytes nothing is about to read stay so related, step by step. -/

namespace Sys2Proof.Machine

/-- The same state with other bytes in FB and TB. -/
def State.withBuffers (s : State) (f : InFrame) (g : CmdFrame) : State := { s with fb := f, tb := g }

/-- The candidate in FB is being judged (R125, R126, R127). -/
abbrev State.judging (s : State) : Prop := s.phase = .valid ∨ s.phase = .apply ∨ s.phase = .discard

/-- `u` is `s` but for FB while no candidate is judged and for TB while no frame waits to be written. -/
def SameButUnread (s u : State) : Prop :=
  ∃ f g, u = s.withBuffers f g ∧ (s.judging → f = s.fb) ∧ (s.atStageTwo → g = s.tb)

/-- Two steps or runs that end alike: in next states that agree, or in the same refusal. -/
inductive EndAlike : Host.Outcome State Fault Refusal → Host.Outcome State Fault Refusal → Prop
  | next {t u} : SameButUnread t u → EndAlike (.next t) (.next u)
  | refused (e) : EndAlike (.refused e) (.refused e)

theorem SameButUnread.refl (s : State) : SameButUnread s s :=
  ⟨s.fb, s.tb, rfl, fun _ => rfl, fun _ => rfl⟩

theorem SameButUnread.observe_eq {s u : State} (h : SameButUnread s u) : s.observe = u.observe := by
  obtain ⟨f, g, rfl, -, -⟩ := h
  rfl

/-- While nothing reads the buffers, any bytes in them will do. -/
theorem sameButUnread_withBuffers {s : State} (hj : ¬ s.judging) (h2 : ¬ s.atStageTwo) (f : InFrame)
    (g : CmdFrame) : SameButUnread s (s.withBuffers f g) :=
  ⟨f, g, rfl, fun h => absurd h hj, fun h => absurd h h2⟩

/-! The operations. -/

/-- A guard on the operands decides alike in both states. -/
theorem guarded_endAlike {p : Bool} {t u : State} {e : Refusal} (h : SameButUnread t u) :
    EndAlike (if p then .next t else .refused e) (if p then .next u else .refused e) := by
  cases p with
  | true => exact .next h
  | false => exact .refused e

section Operations
variable {s : State} (hs : s.Idle) (f : InFrame) (g : CmdFrame)
include hs

theorem complete_sameButUnread (n : OpName) (r : Result) :
    SameButUnread (complete n r s) (complete n r (s.withBuffers f g)) :=
  sameButUnread_withBuffers (s := complete n r s) (by simp [hs.1]) (by simp [hs.2]) f g

/-- A command form builds the frame it sends, over whatever stood in TB (R141). -/
theorem startForm_sameButUnread (n : OpName) (a : Byte) (b : Bool) (k : Nat) (e : Extra) :
    SameButUnread (startForm n a b k e s) (startForm n a b k e (s.withBuffers f g)) :=
  ⟨f, build a b k e, rfl, by simp [hs.1], fun _ => rfl⟩

theorem onPort_endAlike (i : Instr) {run : State → Host.Outcome State Fault Refusal}
    (h : EndAlike (run s) (run (s.withBuffers f g))) :
    EndAlike (onPort i run s) (onPort i run (s.withBuffers f g)) := by
  rwa [onPort_idle hs, onPort_idle (s := s.withBuffers f g) hs]

theorem commandForm_endAlike (i : Instr) (n : OpName) (a : Byte) (b : Bool) (addr : Option Int)
    (e : Extra) :
    EndAlike (commandForm i n a b addr e s) (commandForm i n a b addr e (s.withBuffers f g)) :=
  onPort_endAlike hs f g i (guarded_endAlike (startForm_sameButUnread hs f g ..))

/-- No operation reads FB or TB (R21, R22, R35). -/
theorem exec_op_endAlike {c : Params} {i : Instr} {r : OpRequest} (h : encode c i = .op r) :
    EndAlike (exec i s) (exec i (s.withBuffers f g)) := by
  cases i <;> simp only [encode, reduceCtorEq] at h
  case checksum | validate | build =>
    simp only [exec, execChecksum, execValidate, execBuild]
    exact onPort_endAlike hs f g _ (guarded_endAlike (complete_sameButUnread hs f g ..))
  case drain =>
    simp only [exec, execDrain]
    exact onPort_endAlike hs f g _ (.next
      (sameButUnread_withBuffers (s := startDrain { s with latched := .drain }) (by simp) (by simp) f g))
  case setId id addr =>
    simp only [exec, execSetId]
    refine onPort_endAlike hs f g _ ?_
    split_ifs
    · exact commandForm_endAlike hs f g ..
    · exact .refused _
  case setMode | setState | setInterval | query => exact commandForm_endAlike hs f g ..
  case parse | rdDevid | rdMode | rdPower | rdInterval | rdPm25 | rdPm10 =>
    simp only [exec, execParse, execRdDevid, execRdMode, execRdPower, execRdInterval, execRdPm25,
      execRdPm10]
    exact onPort_endAlike hs f g _ (.next (complete_sameButUnread hs f g ..))

/-- Which request is served, and whether it is refused, does not depend on the buffers. -/
theorem acceptStage_endAlike : EndAlike (acceptStage s) (acceptStage (s.withBuffers f g)) := by
  rcases hh : s.held with _ | ⟨r, rs⟩
  · have hh' : (s.withBuffers f g).held = [] := hh
    simp only [acceptStage, hh, hh']
    exact .next (sameButUnread_withBuffers (by simp [hs.1]) (by simp [hs.2]) f g)
  · have hh' : (s.withBuffers f g).held = r :: rs := hh
    have hd : (s.withBuffers f g).draws = s.draws := rfl
    simp only [acceptStage, hh, hh', hd]
    rcases hr : decodeRequest (pickHeld r rs (Config.servingOrder s.draws)).1 with _ | i
    · exact .refused _
    · exact exec_op_endAlike (s := served _ s) hs f g (encode_of_decodeRequest (c := s.params) hr)

end Operations

/-! The micro-steps and the turns. -/

section Buffers
variable {s : State} (f : InFrame) (g : CmdFrame)

theorem testStep_sameButUnread : SameButUnread (testStep s) (testStep (s.withBuffers f g)) := by
  by_cases hl : 10 ≤ s.rxq.length
  · rw [testStep_go hl, testStep_go (s := s.withBuffers f g) hl]
    exact sameButUnread_withBuffers (s := { s with phase := .scan }) (by simp) (by simp) f g
  · have hl := not_le.1 hl
    rw [testStep_done hl, testStep_done (s := s.withBuffers f g) hl]
    exact sameButUnread_withBuffers (s := completeDrain s) (by simp) (by simp) f g

theorem scanStep_sameButUnread (hp : s.phase = .scan) :
    SameButUnread (scanStep s) (scanStep (s.withBuffers f g)) := by
  by_cases hd : s.rxq = [] ∨ s.rxq.head? = some Config.headByte
  · rw [scanStep_found hd, scanStep_found (s := s.withBuffers f g) hd]
    exact sameButUnread_withBuffers
      (s := { s with phase := if 10 ≤ s.rxq.length then .read else .test })
      (by split_ifs <;> simp) (by split_ifs <;> simp) f g
  · rcases hq : s.rxq with _ | ⟨b, q⟩
    · exact absurd (.inl hq) hd
    · have hb : b ≠ Config.headByte := by simpa [hq] using hd
      rw [scanStep_drop hq hb, scanStep_drop (s := s.withBuffers f g) hq hb]
      exact sameButUnread_withBuffers (s := { s with rxq := q }) (by simp [hp]) (by simp [hp]) f g

theorem validStep_phase_ne_idle (s : State) : (validStep s).phase ≠ .idle := by
  simp only [validStep]
  split_ifs <;> simp

/-- READ fills FB, over whatever stood in it (R124). -/
theorem readStep_endAlike : EndAlike (readStep s) (readStep (s.withBuffers f g)) := by
  have hq : (s.withBuffers f g).rxq = s.rxq := rfl
  simp only [readStep, tpReadToFb, hq]
  rcases InFrame.takeFrom s.rxq with _ | ⟨f', rest⟩
  · exact .refused _
  · exact .next ⟨f', g, rfl, fun _ => rfl, by simp⟩

theorem applyResult_withBuffers (c : Params) (r : ParseResult) :
    applyResult c r (s.withBuffers f g) = (applyResult c r s).withBuffers f g := by
  cases r with
  | dataReading | invalid => rfl
  | replyAck a =>
    simp only [applyResult, latchReply]
    split_ifs <;> rfl

theorem applyResult_sameButUnread (c : Params) (r : ParseResult) :
    SameButUnread (applyResult c r s) (applyResult c r (s.withBuffers f g)) := by
  obtain ⟨-, -, -, hp, -⟩ := applyResult_ctl c r s
  rw [applyResult_withBuffers]
  exact sameButUnread_withBuffers (by simp [hp]) (by simp [hp]) f g

/-- An inbound row acts on its operands, not on the bytes of FB. -/
theorem exec_inbound_endAlike {c : Params} {i : Instr} {x : InFrame} (h : encode c i = .inb x) :
    EndAlike (exec i s) (exec i (s.withBuffers f g)) := by
  cases i <;> simp only [encode, reduceCtorEq] at h <;>
    exact .next (applyResult_sameButUnread f g s.params _)

end Buffers

/-- BLOCK's micro-steps read the buffers only where they agree. -/
theorem blockStep_endAlike {s u : State} (h : SameButUnread s u) :
    EndAlike (blockStep s) (blockStep u) := by
  obtain ⟨f, g, rfl, hf, hg⟩ := h
  have hp' : (s.withBuffers f g).phase = s.phase := rfl
  have hb' : (s.withBuffers f g).cmdBusy = s.cmdBusy := rfl
  have hs' : (s.withBuffers f g).stage = s.stage := rfl
  unfold blockStep
  rw [hp', hb', hs']
  cases hp : s.phase with
  | idle =>
    cases hb : s.cmdBusy with
    | false => exact acceptStage_endAlike ⟨hp, hb⟩ f g
    | true =>
      cases hst : s.stage with
      | send =>
        obtain rfl := hg ⟨hp, hb, hst⟩
        dsimp only
        rw [if_pos rfl, if_pos rfl, sendStage_eq, sendStage_eq]
        exact .next
          (sameButUnread_withBuffers (s := sendFrame s.tb s) (by simp [hp]) (by simp) f s.tb)
      | wait => exact .next (sameButUnread_withBuffers (s := startDrain s) (by simp) (by simp) f g)
  | test => exact .next (testStep_sameButUnread f g)
  | scan => exact .next (scanStep_sameButUnread f g hp)
  | read => exact readStep_endAlike f g
  | valid =>
    obtain rfl := hf (.inl hp)
    exact .next ⟨s.fb, g, rfl, fun _ => rfl, fun h => absurd h.1 (validStep_phase_ne_idle s)⟩
  | apply =>
    obtain rfl := hf (.inr (.inl hp))
    exact exec_inbound_endAlike s.fb g (encode_classifyIn s.params s.fb).1
  | discard => exact .next (sameButUnread_withBuffers (s := discardFrame s) (by simp) (by simp) f g)

theorem SameButUnread.afterTurn {s u : State} (h : SameButUnread s u) :
    SameButUnread s.afterTurn u.afterTurn := by
  obtain ⟨f, g, rfl, hf, hg⟩ := h
  exact ⟨f, g, rfl, hf, hg⟩

theorem step_endAlike {s u : State} (h : SameButUnread s u) : EndAlike (step s) (step u) := by
  have hu : u.turn = s.turn := by obtain ⟨f, g, rfl, -, -⟩ := h; rfl
  have ha := h.afterTurn
  rcases ht : s.turn with _ | b | _ | r | _ <;> rw [ht] at hu
  · rw [step_block (blocksTurn_iff.2 ht), step_block (blocksTurn_iff.2 hu)]
    exact blockStep_endAlike ha
  all_goals obtain ⟨f, g, hg, hf, h2⟩ := ha
  · rw [step_rx ht, step_rx hu, hg]
    exact .next ⟨f, g, rfl, hf, h2⟩
  · rw [step_tx ht, step_tx hu, hg]
    exact .next ⟨f, g, rfl, hf, h2⟩
  · rw [step_host ht, step_host hu, hg]
    exact .next ⟨f, g, rfl, hf, h2⟩
  · rw [step_reset ht, step_reset hu, hg]
    exact .next (SameButUnread.refl _)

theorem runFor_endAlike (n : Nat) {s u : State} (h : SameButUnread s u) :
    EndAlike (runFor n s) (runFor n u) := by
  induction n generalizing s u with
  | zero => exact .next h
  | succ n ih =>
    have hstep := step_endAlike h
    unfold runFor
    generalize step s = o, step u = o' at hstep ⊢
    cases hstep with
    | next h => exact ih h
    | refused e => exact .refused e

/-- Settles O58: the two runs end alike, and what the observer sees has no buffer in it. -/
theorem buffersAreNotObservable : Obligations.BuffersAreNotObservable := by
  unfold Obligations.BuffersAreNotObservable
  intro n s f g hf hg
  have h : EndAlike (runFor n s) (runFor n { s with fb := f, tb := g }) :=
    runFor_endAlike n ⟨f, g, rfl, hf, fun ⟨hp, hb, hst⟩ => hg hp hb hst⟩
  generalize runFor n s = o, runFor n { s with fb := f, tb := g } = o' at h ⊢
  cases h with
  | next h => exact h.observe_eq
  | refused e => rfl

end Sys2Proof.Machine
end

section
/-! Proofs, the state family (10_state.md): the flag and the queues, step by step (R24, R33, R34, R47 to
R49), and the state after RESET (R36, R180 to R182). -/

namespace Sys2Proof.Machine

/-! What accepting a request and APPLY leave of the queues and the flag. -/

theorem Accepted.rxq_eq {s t : State} (h : Accepted s t) : t.rxq = s.rxq := by
  cases h <;> rfl

theorem Accepted.sent_eq {s t : State} (h : Accepted s t) : t.sent = s.sent := by
  cases h <;> rfl

/-- Of the accepted operations only a DRAIN touches the flag: it clears it and goes to TEST (R120). -/
theorem Accepted.applied_cases {s t : State} (h : Accepted s t) :
    t.applied = s.applied ∨ (t.applied = false ∧ t.phase = .test) := by
  cases h with
  | drain => exact .inr ⟨rfl, rfl⟩
  | wait | one | form => exact .inl rfl

/-- APPLY leaves RXQ and the record of sent bytes and never clears the flag (R126, R136). -/
theorem exec_classifyIn_next {s t : State} (h : exec (classifyIn s.params s.fb) s = .next t) :
    t.rxq = s.rxq ∧ t.sent = s.sent ∧ (t.applied = s.applied ∨ t.applied = true) := by
  obtain ⟨_, _, _, _, _, _, _, b, h'⟩ := exec_inbound_frame (encode_classifyIn s.params s.fb).1 s
  obtain rfl := Host.Outcome.next.inj (h.symm.trans h')
  cases b <;> simp

/-! The flag `applied` (R24). -/

/-- Of the micro-steps APPLY sets the flag, and a start, which leaves the idle phase, clears it. -/
theorem Micro.applied_cases {s t : State} (h : Micro s t) :
    t.applied = s.applied ∨ (t.applied = true ∧ s.phase = .apply)
    ∨ (t.applied = false ∧ t.phase = .test ∧ s.phase = .idle) := by
  cases h with
  | accept hi ha =>
    rcases ha.applied_cases with h | ⟨hf, hp⟩
    · exact .inl h
    · exact .inr (.inr ⟨hf, hp, hi.1⟩)
  | start hp => exact .inr (.inr ⟨rfl, rfl, hp⟩)
  | apply hp he =>
    obtain ⟨-, -, h | h⟩ := exec_classifyIn_next he
    · exact .inl h
    · exact .inr (.inl ⟨h, hp⟩)
  | send | testGo | testDone | scanDrop | scanRead | scanTest | read | valid | discard =>
    exact .inl rfl

/-- Settles O46: a micro-step sets the flag at APPLY and clears it at a start; of the other turns only
RESET's changes it. -/
theorem appliedFlagRule : Obligations.AppliedFlagRule := by
  unfold Obligations.AppliedFlagRule
  intro s t h hne
  cases hb : s.blocksTurn with
  | true =>
    rcases (micro_of_step hb h).applied_cases with h | ⟨ht, hp⟩ | ⟨hf, ht, hp⟩
    · exact absurd h hne
    · exact .inl ⟨ht, rfl, hp⟩
    · exact .inr (.inl ⟨hf, ht, rfl, hp⟩)
  | false =>
    rcases step_env hb h with ⟨b, -, rfl⟩ | ⟨-, rfl⟩ | ⟨r, -, rfl⟩ | ⟨hr, rfl⟩
    · exact absurd rfl hne
    · exact absurd rfl hne
    · exact absurd rfl hne
    · exact .inr (.inr ⟨rfl, hr⟩)

/-! RXQ (R33, R47). -/

/-- Of the micro-steps only a discard in SCAN and READ take bytes, from the head (R122, R124). -/
theorem Micro.rxq_cases {s t : State} (h : Micro s t) :
    t.rxq = s.rxq
    ∨ (s.phase = .scan ∧ ∃ b, b ≠ Config.headByte ∧ s.rxq = b :: t.rxq)
    ∨ (s.phase = .read ∧ s.rxq = t.fb.bytes ++ t.rxq) := by
  cases h with
  | accept _ ha => exact .inl ha.rxq_eq
  | scanDrop b q hp hq hb => exact .inr (.inl ⟨hp, b, hb, hq⟩)
  | read f rest hp hq => exact .inr (.inr ⟨hp, hq⟩)
  | apply _ he => exact .inl (exec_classifyIn_next he).1
  | send | start | testGo | testDone | scanRead | scanTest | valid | discard => exact .inl rfl

/-- Settles O47: BLOCK takes from the head in SCAN and READ, and LINK_RX appends at the tail. -/
theorem rxqIsFirstInFirstOut : Obligations.RxqIsFirstInFirstOut := by
  unfold Obligations.RxqIsFirstInFirstOut
  intro s t h
  cases hb : s.blocksTurn with
  | true =>
    rcases (micro_of_step hb h).rxq_cases with h | ⟨hp, hq⟩ | ⟨hp, hq⟩
    · exact .inl h
    · exact .inr (.inr (.inl ⟨rfl, hp, hq⟩))
    · exact .inr (.inr (.inr ⟨rfl, hp, hq⟩))
  | false =>
    rcases step_env hb h with ⟨b, hr, rfl⟩ | ⟨-, rfl⟩ | ⟨r, -, rfl⟩ | ⟨-, rfl⟩
    · exact .inr (.inl ⟨b, hr, rfl⟩)
    · exact .inl rfl
    · exact .inl rfl
    · exact .inl rfl

/-! TXQ (R34, R48). -/

/-- BLOCK sends nothing itself: the record of sent bytes is LINK_TX's (log 27). -/
theorem Micro.sent_eq {s t : State} (h : Micro s t) : t.sent = s.sent := by
  cases h with
  | accept _ ha => exact ha.sent_eq
  | apply _ he => exact (exec_classifyIn_next he).2.1
  | _ => rfl

/-- What a micro-step writes is appended to TXQ, since it takes nothing out (R141). -/
theorem Micro.txq_eq {s t : State} (h : Micro s t) :
    t.txq = s.txq ++ if s.atStageTwo then s.tb.bytes else [] := by
  have hw := h.written_eq
  simp only [State.written, h.sent_eq, List.append_assoc] at hw
  exact List.append_cancel_left hw

/-- Settles O48: BLOCK appends at stage 2 only, and LINK_TX takes from the head. -/
theorem txqIsFirstInFirstOut : Obligations.TxqIsFirstInFirstOut := by
  unfold Obligations.TxqIsFirstInFirstOut
  intro s t h
  cases hb : s.blocksTurn with
  | true =>
    have hq := (micro_of_step hb h).txq_eq
    split_ifs at hq with h2
    · obtain ⟨hp, hc, hs⟩ := h2
      exact .inr (.inl ⟨rfl, hp, hc, hs, hq⟩)
    · exact .inl (hq.trans (List.append_nil _))
  | false =>
    rcases step_env hb h with ⟨b, -, rfl⟩ | ⟨ht, rfl⟩ | ⟨r, -, rfl⟩ | ⟨-, rfl⟩
    · exact .inl rfl
    · cases hq : s.txq with
      | nil => exact .inl (by simp [hq])
      | cons b q => exact .inr (.inr ⟨ht, b, by simp [hq]⟩)
    · exact .inl rfl
    · exact .inl rfl

/-! The state after RESET (R36, R180, R182). -/

theorem drawnFb_bytes (draw : Nat) :
    (drawnFb draw).bytes = (List.range 10).map (Config.resetFb draw) := rfl

theorem drawnTb_bytes (draw : Nat) :
    (drawnTb draw).bytes = (List.range 19).map (Config.resetTb draw) := rfl

/-- Settles O41: RESET's turn is `resetBlock`, whose fields are R36's values. -/
theorem resetEvent : Obligations.ResetEvent := by
  unfold Obligations.ResetEvent
  intro s h
  exact ⟨_, step_reset h, rfl, rfl, rfl, rfl, rfl, rfl, rfl, drawnFb_bytes s.draws,
    drawnTb_bytes s.draws, rfl, rfl, rfl, rfl, rfl, rfl, rfl⟩

theorem resetAt_idle (c : Params) : (State.resetAt c).Idle := ⟨rfl, rfl⟩

/-- Settles O42, field by field. -/
theorem resetValues : Obligations.ResetValues := by
  unfold Obligations.ResetValues
  exact ⟨rfl, rfl, rfl, rfl, rfl, rfl, rfl, rfl, resetAt_idle Config.params⟩

/-- On an idle block the invariant asks for nothing but legal parameters: no candidate is judged and no
command form is in progress. -/
theorem State.Idle.inv {s : State} (hi : s.Idle) (hc : s.params.legal = true) : s.Inv := by
  obtain ⟨hp, hb⟩ := hi
  constructor <;> simp [hp, hb, hc]

/-- Settles O43: reset leaves the block idle, at whatever legal parameters. -/
theorem invariantHoldsAtReset : Obligations.InvariantHoldsAtReset := by
  unfold Obligations.InvariantHoldsAtReset
  exact ⟨(resetAt_idle Config.params).inv params_legal, fun c hc => (resetAt_idle c).inv hc⟩

end Sys2Proof.Machine
end

section
/-! Proofs, the memory family (20_memory.md): every step keeps the invariant (R53, R77, R117, R123 to
R125, R140). Three kinds of state meet it for different reasons: an idle block, a command form before its
drain, and a drain in progress. -/

namespace Sys2Proof.Machine

/-! The kinds of state that meet the invariant; `State.Idle.inv` is the first of them. -/

/-- A command form before its last stage meets the invariant when TB, as long as it is unwritten, holds a
form's frame (R140, R141). -/
theorem inv_of_formBeforeDrain {s : State} (hc : s.params.legal = true) (hp : s.phase = .idle)
    (hb : s.cmdBusy = true) (hn : isFormName s.latched = true)
    (hf : s.stage = .send → holdsFormFrame s.params s.tb = true) : s.Inv := by
  refine ⟨hc, ?_, ?_, ?_, ?_, fun _ => hf, ?_, fun _ => hn, ?_⟩ <;> simp [hp, hb]

/-- The scanner may run: for a DRAIN operation (R120), or for a command form whose frame is written
(R140). -/
def State.mayDrain (s : State) : Prop :=
  s.cmdBusy = false ∧ s.latched = .drain
    ∨ s.cmdBusy = true ∧ s.stage = .wait ∧ isFormName s.latched = true

theorem State.Inv.mayDrain {s : State} (hi : s.Inv) (hp : s.phase ≠ .idle) : s.mayDrain := by
  cases hb : s.cmdBusy with
  | false => exact .inl ⟨hb, hi.idleForm hb hp⟩
  | true => exact .inr ⟨hb, hi.drainsLast hb hp, hi.busyForm hb⟩

/-- A scanner that may run meets the invariant when its own phase does: no frame in TB waits to be
written. -/
theorem inv_of_mayDrain {s : State} (h : s.mayDrain) (hc : s.params.legal = true)
    (hr : s.phase = .read → 10 ≤ s.rxq.length ∧ s.rxq.head? = some Config.headByte)
    (hj : s.judging → s.fb.head = Config.headByte)
    (ha : s.phase = .apply → isInvalid (parseFb s) = false)
    (hd : s.phase = .discard → isInvalid (parseFb s) = true) : s.Inv := by
  rcases h with ⟨hb, hl⟩ | ⟨hb, hw, hn⟩
  · exact ⟨hc, hr, hj, ha, hd, by simp [hb], by simp [hb], by simp [hb], fun _ _ => hl⟩
  · exact ⟨hc, hr, hj, ha, hd, by simp [hw], fun _ _ => hw, fun _ => hn, by simp [hb]⟩

/-- In TEST and SCAN there is no candidate to speak of. -/
theorem inv_of_noCandidate {s : State} (h : s.mayDrain) (hc : s.params.legal = true)
    (hp : s.phase = .test ∨ s.phase = .scan) : s.Inv := by
  rcases hp with hp | hp <;> refine inv_of_mayDrain h hc ?_ ?_ ?_ ?_ <;> simp [hp]

/-! BLOCK's micro-steps. -/

/-- An accepted operation completes at once, starts a DRAIN, or builds its form's frame (R8, R120,
R141). -/
theorem Accepted.inv {s t : State} (hi : s.Inv) (hs : s.Idle) (h : Accepted s t) : t.Inv := by
  cases h with
  | wait => exact hi
  | one => exact State.Idle.inv hs hi.legal
  | drain => exact inv_of_noCandidate (.inl ⟨hs.2, rfl⟩) hi.legal (.inl rfl)
  | form hl n a b k e hn hf => exact inv_of_formBeforeDrain hi.legal hs.1 rfl hn fun _ => hf hi.legal

/-- READ takes a candidate that begins with the head sentinel SCAN has found (R123, R124). -/
theorem head_of_readReady {s : State} (hi : s.Inv) (hp : s.phase = .read) {f : InFrame}
    {rest : List Byte} (hq : s.rxq = f.bytes ++ rest) : f.head = Config.headByte := by
  have hh := (hi.readReady hp).2
  rw [hq] at hh
  exact Option.some.inj hh

/-- PARSE decides, and keeps the candidate it has judged (R125). -/
theorem validStep_inv {s : State} (hi : s.Inv) (hp : s.phase = .valid) : (validStep s).Inv := by
  have hphase := validStep_phase s
  have hsame : parseFb (validStep s) = parseFb s := rfl
  refine inv_of_mayDrain (hi.mayDrain (by simp [hp])) hi.legal ?_ (fun _ => hi.candidate (.inl hp)) ?_ ?_
  all_goals
    rw [hphase]
    split_ifs with h <;> simp [hsame, h]

/-- Every micro-step of BLOCK keeps the invariant. -/
theorem Micro.inv {s t : State} (hi : s.Inv) (h : Micro s t) : t.Inv := by
  cases h with
  | accept hs ha => exact ha.inv hi hs
  | send hp hb => exact inv_of_formBeforeDrain hi.legal hp hb (hi.busyForm hb) (by simp [sendFrame])
  | start hp hb hw =>
    exact inv_of_noCandidate (.inr ⟨hb, hw, hi.busyForm hb⟩) hi.legal (.inl rfl)
  | testDone => exact State.Idle.inv ⟨rfl, rfl⟩ hi.legal
  | testGo hp => exact inv_of_noCandidate (hi.mayDrain (by simp [hp])) hi.legal (.inr rfl)
  | scanDrop b q hp => exact inv_of_noCandidate (hi.mayDrain (by simp [hp])) hi.legal (.inr hp)
  | scanTest hp | discard hp =>
    exact inv_of_noCandidate (hi.mayDrain (by simp [hp])) hi.legal (.inl rfl)
  | scanRead hp hh hl =>
    exact inv_of_mayDrain (hi.mayDrain (by simp [hp])) hi.legal (fun _ => ⟨hl, hh⟩)
      (by simp) (by simp) (by simp)
  | read f rest hp hq =>
    exact inv_of_mayDrain (hi.mayDrain (by simp [hp])) hi.legal (by simp)
      (fun _ => head_of_readReady hi hp hq) (by simp) (by simp)
  | valid hp => exact validStep_inv hi hp
  | apply hp he =>
    obtain ⟨_, _, _, _, _, _, _, _, h'⟩ := exec_inbound_frame (encode_classifyIn s.params s.fb).1 s
    obtain rfl := Host.Outcome.next.inj (he.symm.trans h')
    exact inv_of_noCandidate (hi.mayDrain (by simp [hp])) hi.legal (.inl rfl)

/-! The other agents' turns. -/

/-- The invariant does not speak of the schedule. -/
theorem State.Inv.afterTurn {s : State} (hi : s.Inv) : s.afterTurn.Inv := { hi with }

/-- LINK_RX appends behind the ten bytes and the head that READ is to find (R33). -/
theorem State.Inv.linkRx {s : State} (hi : s.Inv) (b : Byte) : (linkRx b s).Inv :=
  { hi with
    readReady := fun hp => by
      obtain ⟨hl, hh⟩ := hi.readReady hp
      exact ⟨by rw [linkRx_rxq, List.length_append]; omega, by simp [hh]⟩ }

/-- The invariant does not speak of TXQ. -/
theorem State.Inv.linkTx {s : State} (hi : s.Inv) : (linkTx s).Inv := { hi with }

/-- The invariant does not speak of the held requests. -/
theorem State.Inv.hostRequest {s : State} (hi : s.Inv) (r : OpRequest) : (hostRequest r s).Inv :=
  { hi with }

/-- Settles O44: BLOCK's turn micro-step by micro-step, the other agents' turns one by one; RESET leaves
the block idle. -/
theorem invariantIsKeptByEveryStep : Obligations.InvariantIsKeptByEveryStep := by
  unfold Obligations.InvariantIsKeptByEveryStep
  intro s t hi h
  have hi' := hi.afterTurn
  cases hb : s.blocksTurn with
  | true => exact (micro_of_step hb h).inv hi'
  | false =>
    rcases step_env hb h with ⟨b, -, rfl⟩ | ⟨-, rfl⟩ | ⟨r, -, rfl⟩ | ⟨-, rfl⟩
    · exact hi'.linkRx b
    · exact hi'.linkTx
    · exact hi'.hostRequest r
    · exact State.Idle.inv ⟨rfl, rfl⟩ hi.legal

end Sys2Proof.Machine
end

section
/-! Proofs, the encoding family (30_encoding.md): the decoder against the encoder and the opcode table
(R60 to R62, R75, R80). -/

namespace Sys2Proof
open Sys2Proof.Machine

/-- Settles O2: the length selects the format (R75), and an accepted frame of either format is the
encoding of the instruction read from it. -/
theorem encodeOfDecodedBytesIsTheBytes : Obligations.EncodeOfDecodedBytesIsTheBytes := by
  unfold Obligations.EncodeOfDecodedBytesIsTheBytes
  intro c l i h
  unfold decodeBytes at h
  split at h
  next f hf =>
    obtain ⟨he, hw⟩ := encode_of_decodeCmd h
    exact ⟨hw, by rw [he, CmdFrame.bytes_of_ofBytes hf]; rfl⟩
  next =>
    split at h
    next f hf =>
      obtain ⟨he, hw⟩ := encode_of_decodeIn h
      exact ⟨hw, by rw [he, InFrame.bytes_of_ofBytes hf]; rfl⟩
    next => cases h

/-! What the opcode table's masks say of a byte. -/

theorem byte_and_FF (b : Byte) : b &&& 0xFF#8 = b := BitVec.and_allOnes

theorem byte_and_FE_beq_zero (b : Byte) : (b &&& 0xFE#8 == 0#8) = decide (b ≤ 1#8) := by
  revert b; decide

theorem byte_and_E0_of_le {b : Byte} (h : b ≤ 0x1E#8) : b &&& 0xE0#8 = 0#8 := by
  revert h; revert b; decide

theorem byte_le_one_iff (b : Byte) : b ≤ 1#8 ↔ b = 0#8 ∨ b = 1#8 := by
  revert b; decide

/-- Once each row's answer on a frame is known, so is the position of the first row that admits it. -/
theorem firstRow_of_tests {rows : List FrameRow} {bytes : List Byte} {stop : Nat} {tests : List Bool}
    (h : rows.map (fun row => row.admits bytes stop) = tests) (ht : true ∈ tests) :
    rows.findIdx (fun row => row.admits bytes stop) = tests.findIdx id
      ∧ ∃ row ∈ rows, row.admits bytes stop = true := by
  subst h
  exact ⟨by rw [List.findIdx_map]; rfl, List.mem_map.1 ht⟩

/-! The `IN10` rows (R62, R80). -/

/-- What each `IN10` row asks of a frame that begins with the head sentinel, in the table's order. -/
def inTests (f : InFrame) : List Bool :=
  let good := f.checksum == sum8 f.bytes 2 7
  let reply (action : Byte) := f.commandId == Config.replyId && f.p0 == action && good
  [!good, f.commandId == Config.dataId && good,
    reply Config.actMode, reply Config.actId, reply Config.actState, reply Config.params.actFirmware,
    reply Config.actInterval, f.commandId == Config.replyId && good, good]

theorem true_mem_inTests (f : InFrame) : true ∈ inTests f := by
  unfold inTests
  cases f.checksum == sum8 f.bytes 2 7 <;> simp

theorem inRows_admits {f : InFrame} (hf : f.head = Config.headByte) :
    inRows.map (fun row => row.admits f.bytes 7) = inTests f := by
  simp [inRows, FrameRow.admits, RowConstraint.holds, InFrame.bytes, inTests, byte_and_FF, hf, bne,
    Config.params]

theorem head_of_inRow_admits {f : InFrame} {row : FrameRow} (hr : row ∈ inRows)
    (h : row.admits f.bytes 7 = true) : f.head = Config.headByte := by
  simp only [inRows, List.mem_cons, List.not_mem_nil, or_false] at hr
  rcases hr with rfl | rfl | rfl | rfl | rfl | rfl | rfl | rfl | rfl <;>
    simp [FrameRow.admits, InFrame.bytes, byte_and_FF] at h <;> simp [h]

theorem row_classifyIn (f : InFrame) :
    (classifyIn Config.params f).row = 6 + (inTests f).findIdx id := by
  unfold classifyIn inTests
  split_ifs <;> simp_all [Instr.row, List.findIdx_cons, Bool.cond_eq_ite]

/-! The `CMD19` rows (R61, R80). -/

/-- The fixed bytes and the checksum that `CMD.ANY`, and so every `CMD19` row, asks of a frame. -/
structure CmdFrame.WellFramed (f : CmdFrame) : Prop where
  head : f.head = Config.headByte
  command : f.command = Config.cmdId
  set : f.set ≤ 1#8
  checksum : f.checksum = sum8 f.bytes 2 16
  tail : f.tail = Config.tailByte

theorem decodeCmd_of_wellFramed (c : Params) {f : CmdFrame} (hf : f.WellFramed) :
    decodeCmd c f
      = .ok (classifyCmd c f.action (f.set == 1#8) f.extra (join16 f.addrHi f.addrLo)) := by
  have hs : ¬(f.set ≠ 0#8 ∧ f.set ≠ 1#8) := by
    simpa [or_iff_not_imp_left] using (byte_le_one_iff f.set).1 hf.set
  unfold decodeCmd
  rw [if_neg (not_not_intro hf.head), if_neg (not_not_intro hf.command), if_neg hs,
    if_neg (not_not_intro hf.checksum), if_neg (not_not_intro hf.tail)]

theorem wellFramed_of_decodeCmd {c : Params} {f : CmdFrame} {i : Instr} (h : decodeCmd c f = .ok i) :
    f.WellFramed := by
  unfold decodeCmd at h
  split_ifs at h with hh hc hs hk ht
  exact ⟨not_not.1 hh, not_not.1 hc, (byte_le_one_iff _).2 (by tauto), not_not.1 hk, not_not.1 ht⟩

theorem sumHolds_cmdFrame (f : CmdFrame) :
    RowConstraint.sumHolds.holds f.bytes 16 = (f.checksum == sum8 f.bytes 2 16) := rfl

theorem sumHoldsAndAtMost_cmdFrame (f : CmdFrame) (bound : Byte) :
    (RowConstraint.sumHoldsAndAtMost 4 bound).holds f.bytes 16
      = (f.checksum == sum8 f.bytes 2 16 && decide (f.extra.e0 ≤ bound)) := rfl

theorem wellFramed_of_cmdRow_admits {f : CmdFrame} {row : FrameRow} (hr : row ∈ cmdRows)
    (h : row.admits f.bytes 16 = true) : f.WellFramed := by
  suffices hs : f.head = Config.headByte ∧ f.command = Config.cmdId ∧ f.set ≤ 1#8
      ∧ f.checksum = sum8 f.bytes 2 16 ∧ f.tail = Config.tailByte by
    obtain ⟨hh, hc, hs, hk, ht⟩ := hs
    exact ⟨hh, hc, hs, hk, ht⟩
  simp only [cmdRows, List.mem_cons, List.not_mem_nil, or_false] at hr
  rcases hr with rfl | rfl | rfl | rfl | rfl | rfl
  all_goals
    simp only [FrameRow.admits, sumHolds_cmdFrame, sumHoldsAndAtMost_cmdFrame] at h
    generalize sum8 f.bytes 2 16 = k at h ⊢
    simp [CmdFrame.bytes, Extra.bytes, byte_and_FF, byte_and_FE_beq_zero] at h
    simp [h]

theorem Extra.beq_eq_beq_bytes (e e' : Extra) : (e == e') = (e.bytes == e'.bytes) := by
  rw [Bool.eq_iff_iff, beq_iff_eq, beq_iff_eq]
  exact ⟨congrArg Extra.bytes, Extra.bytes_injective⟩

/-- What each `CMD19` row asks of the action, the set flag and the extra bytes of a well-framed frame,
in the table's order; the value and the new id stand where log 18 has them. -/
def cmdTests (action : Byte) (set : Bool) (e : Extra) : List Bool :=
  let value (bound : Byte) := decide (e.e0 ≤ bound) && e == valueExtra Config.params e.e0
  [action == Config.actMode && set && value 1#8,
    action == Config.actQuery && !set && e == Extra.zero,
    action == Config.actId && set && e == newIdExtra Config.params e.e9 e.e10,
    action == Config.actState && set && value 1#8,
    action == Config.actInterval && set && value 0x1E#8,
    true]

theorem cmdRows_admits {f : CmdFrame} (hf : f.WellFramed) :
    cmdRows.map (fun row => row.admits f.bytes 16)
      = cmdTests f.action (f.set == 1#8) f.extra := by
  have hv : (valueExtra Config.params f.extra.e0).bytes = f.extra.e0 :: List.replicate 10 0 := rfl
  have hn : (newIdExtra Config.params f.extra.e9 f.extra.e10).bytes
      = List.replicate 9 0 ++ [f.extra.e9, f.extra.e10] := rfl
  simp only [cmdRows, List.map_cons, FrameRow.admits, sumHolds_cmdFrame, sumHoldsAndAtMost_cmdFrame,
    ← hf.checksum, cmdTests, Extra.beq_eq_beq_bytes, hv, hn, Extra.zero_bytes]
  rcases (byte_le_one_iff _).1 hf.set with hs | hs <;> by_cases hb : f.extra.e0 ≤ 0x1E#8 <;>
    simp [CmdFrame.bytes, Extra.bytes, byte_and_FF, byte_and_FE_beq_zero, byte_and_E0_of_le, hf.head,
      hf.command, hf.tail, hs, hb]

theorem row_classifyCmd (a : Byte) (b : Bool) (e : Extra) (addr : Word16) :
    (classifyCmd Config.params a b e addr).row = (cmdTests a b e).findIdx id := by
  have hv : e.get (extraIndex Config.params.extraAtValue) = e.e0 := rfl
  have hh : e.get (extraIndex Config.params.extraAtNewIdHi) = e.e9 := rfl
  have hl : e.get (extraIndex Config.params.extraAtNewIdLo) = e.e10 := rfl
  simp only [classifyCmd, cmdTests, hv, hh, hl, List.findIdx_cons, Bool.cond_eq_ite, id, and_assoc,
    and_comm (a := _ = valueExtra _ _), Bool.and_eq_true, beq_iff_eq, decide_eq_true_eq,
    Bool.not_eq_true', if_true]
  split_ifs <;> rfl

/-- Settles O3, format by format: a frame the decoder accepts answers the rows' tests as the decoder's
case split does, and a frame any row admits has the fixed bytes the decoder asks for. -/
theorem decoderFollowsTheOpcodeTable : Obligations.DecoderFollowsTheOpcodeTable := by
  unfold Obligations.DecoderFollowsTheOpcodeTable
  refine ⟨fun f => ?_, fun f => ?_⟩
  · cases h : decodeIn Config.params f with
    | ok i =>
      obtain ⟨hf, rfl⟩ : f.head = Config.headByte ∧ classifyIn Config.params f = i := by
        unfold decodeIn at h
        split_ifs at h with hf
        exact ⟨not_not.1 hf, Except.ok.inj h⟩
      obtain ⟨hi, he⟩ := firstRow_of_tests (inRows_admits hf) (true_mem_inTests f)
      exact ⟨by rw [hi, row_classifyIn], he⟩
    | error e =>
      have hf : f.head ≠ Config.headByte := fun hf => by simp [decodeIn, hf] at h
      exact fun row hr => Bool.eq_false_iff.2 fun ha => hf (head_of_inRow_admits hr ha)
  · cases h : decodeCmd Config.params f with
    | ok i =>
      have hf := wellFramed_of_decodeCmd h
      obtain ⟨hi, he⟩ := firstRow_of_tests (cmdRows_admits hf) (by simp [cmdTests])
      rw [(cmdFrame_of_decode h).1]
      exact ⟨by rw [hi, row_classifyCmd], he⟩
    | error e =>
      have hf : ¬ f.WellFramed := fun hf => by simp [decodeCmd_of_wellFramed _ hf] at h
      exact fun row hr => Bool.eq_false_iff.2 fun ha => hf (wellFramed_of_cmdRow_admits hr ha)

/-- Settles O4: the decoder run on the six words. -/
theorem sampleFramesDecode : Obligations.SampleFramesDecode := by
  unfold Obligations.SampleFramesDecode
  decide

end Sys2Proof
end

section
/-! Proofs, the encoding family (30_encoding.md): what the frame rows mean (R80, R125 to R127, R141). -/

namespace Sys2Proof.Machine

/-- The Reply rows part the actions among them, and each applies the Reply of its own action (R114). -/
theorem exec_classifyIn_reply {s : State} {f : InFrame} (hs : f.checksum = sum8 f.bytes 2 7)
    (hc : f.commandId = Config.replyId) : exec (classifyIn s.params f) s = .next
      (applyResult s.params (.replyAck f.p0 f.p1 f.p2 f.p3 (join16 f.idHi f.idLo)) s) := by
  unfold classifyIn
  dsimp only
  rw [if_neg (not_not_intro hs), hc, if_neg replyId_ne_dataId, if_pos rfl]
  split_ifs with hm hi hst hf hv
  · rw [hm]; rfl
  · rw [hi]; rfl
  · rw [hst]; rfl
  · rw [hf]; rfl
  · rw [hv]; rfl
  · rfl

/-- Settles O20, case by case of PARSE: the checksum first, then the command-id (R111, R116). -/
theorem rowMeaningAgreesWithParse : Obligations.RowMeaningAgreesWithParse := by
  unfold Obligations.RowMeaningAgreesWithParse
  intro s
  by_cases hs : s.fb.checksum = sum8 s.fb.bytes 2 7
  · have hp : inboundSumHolds s.fb = true := by rw [sumHolds_iff]; exact beq_iff_eq.2 hs
    by_cases hr : s.fb.commandId = Config.replyId
    · rw [parse_reply hp hr, exec_classifyIn_reply hs hr]
    · unfold classifyIn
      dsimp only
      rw [if_neg (not_not_intro hs), if_neg hr]
      split_ifs with hd
      · rw [parse_data hp hd]; rfl
      · rw [parse_unknown hp hd hr]; rfl
  · have hp : inboundSumHolds s.fb = false := by rw [sumHolds_iff]; exact beq_eq_false_iff_ne.2 hs
    rw [parse_bad hp]
    unfold classifyIn
    rw [if_pos hs]
    rfl

/-- Stage 2 on a frame of BUILD appends the bytes of R61's field table and enters the delay (R141). -/
theorem sendFrame_cmdTo (a : Byte) (b : Bool) {e : Extra} {l : List Byte} (he : e.bytes = l)
    (addr : Word16) (s : State) : sendFrame (cmdTo a b e addr) s = { s with
      txq := s.txq ++ commandBytes a (if b then 1 else 0) l addr.toNat, stage := .wait } := by
  rw [← he, ← cmdTo_bytes]
  rfl

/-- Settles O24: each row is stage 2 on its own frame, whose extra bytes are those its rule places. -/
theorem commandFramesAreSent : Obligations.CommandFramesAreSent := by
  unfold Obligations.CommandFramesAreSent
  refine fun s addr =>
    ⟨fun hc => ⟨fun passive => ?_, fun newId => ?_, fun awake => ?_, fun minutes => ?_⟩, ?_,
      fun action set extra => ?_⟩
  · exact congrArg _ (sendFrame_cmdTo _ true (valueExtra_bytes hc (boolByte passive)) addr s)
  · exact congrArg _ (sendFrame_cmdTo _ true (newIdExtra_bytes hc newId.toNat) addr s)
  · exact congrArg _ (sendFrame_cmdTo _ true (valueExtra_bytes hc (boolByte awake)) addr s)
  · exact congrArg _ (sendFrame_cmdTo _ true (valueExtra_bytes hc minutes) addr s)
  · exact congrArg _ (sendFrame_cmdTo _ false Extra.zero_bytes addr s)
  · exact congrArg _ (sendFrame_cmdTo action set rfl addr s)

end Sys2Proof.Machine
end

section
/-! Proofs, the checksum family (40_checksum.md): the laws of the sum and what CHECKSUM and VALIDATE answer
(R90 to R92, R118). -/

namespace Sys2Proof
open Sys2Proof.Machine

/-! The sum of a range (R90, R91). -/

/-- The running sum is the sum of the range in the group of the bytes. -/
theorem sum8_eq_sum (b : List Byte) (lo hi : Nat) :
    sum8 b lo hi = ((b.drop lo).take (hi + 1 - lo)).sum := by
  rw [List.sum_eq_foldl]; rfl

theorem sum8_split (b : List Byte) {lo m hi : Nat} (hlo : lo ≤ m) (hhi : m < hi) :
    sum8 b lo hi = sum8 b lo m + sum8 b (m + 1) hi := by
  have hlen : hi + 1 - lo = (m + 1 - lo) + (hi + 1 - (m + 1)) := by omega
  have hstart : lo + (m + 1 - lo) = m + 1 := by omega
  simp only [sum8_eq_sum]
  rw [hlen, List.take_add, List.sum_append, List.drop_drop, hstart]

theorem sum8_set_outside (b : List Byte) {lo hi k : Nat} (v : Byte) (h : k < lo ∨ hi < k) :
    sum8 (b.set k v) lo hi = sum8 b lo hi := by
  unfold sum8
  by_cases hk : k < lo
  · rw [List.drop_set_of_lt hk]
  · rw [List.drop_set, if_neg hk, List.take_set_of_le (by omega)]

/-- Setting one byte of the range changes the sum by the difference of the two bytes (R91 (d)). -/
theorem sum8_set_inside {b : List Byte} {lo hi k : Nat} {u : Byte} (v : Byte) (hlo : lo ≤ k)
    (hhi : k ≤ hi) (hu : b[k]? = some u) :
    sum8 (b.set k v) lo hi = sum8 b lo hi + (v - u) := by
  have hr : ((b.drop lo).take (hi + 1 - lo))[k - lo]? = some u := by
    rw [List.getElem?_take_of_lt (by omega), List.getElem?_drop, Nat.add_sub_cancel' hlo, hu]
  obtain ⟨hlt, hget⟩ := List.getElem?_eq_some_iff.1 hr
  rw [sum8_eq_sum, sum8_eq_sum, List.drop_set, if_neg (by omega), List.take_set, List.sum_set',
    dif_pos hlt, hget, neg_add_eq_sub]

/-- Settles O6: the range's bytes as a list, permuted, split, or with one byte set; the cancelling changes
are two single ones. -/
theorem checksumLaws : Obligations.ChecksumLaws := by
  unfold Obligations.ChecksumLaws
  refine ⟨fun b c lo hi h => ?_, fun b lo m hi => sum8_split b, fun b lo hi k v d hlo hhi hv => ?_,
    fun b lo hi k v => sum8_set_outside b v, fun b lo hi j k u v d hj hj' hk hk' hne hu hv => ?_⟩
  · rw [sum8_eq_sum, sum8_eq_sum, h.sum_eq]
  · rw [sum8_set_inside _ hlo hhi hv, add_sub_cancel_left]
  · have hv' : (b.set j (u + d))[k]? = some v := by rw [List.getElem?_set_ne hne, hv]
    rw [sum8_set_inside _ hk hk' hv', sum8_set_inside _ hj hj' hu]
    abel

/-- Settles O14: a change of byte 8 moves the stored byte and not the sum, a change of bytes 2..7 moves the
sum and not the stored byte (R91 (d)). -/
theorem oneByteErrorIsDetected : Obligations.OneByteErrorIsDetected := by
  unfold Obligations.OneByteErrorIsDetected
  intro order f g k v hf h2 h8 hne hg
  apply parse_bad
  rw [sumHolds_iff, beq_iff_eq] at hf
  rw [sumHolds_iff, beq_eq_false_iff_ne, hg]
  have hstored : some g.checksum = (f.bytes.set k v)[8]? := by rw [← hg]; rfl
  rcases h8.lt_or_eq with hk | rfl
  · obtain ⟨u, hu⟩ : ∃ u, f.bytes[k]? = some u := ⟨_, List.getElem?_eq_getElem (by simp; omega)⟩
    have hsame : g.checksum = f.checksum := by
      rw [List.getElem?_set_ne hk.ne] at hstored; exact Option.some.inj hstored
    rw [hsame, hf, sum8_set_inside v h2 (by omega) hu, ne_eq, left_eq_add, sub_eq_zero]
    rintro rfl
    exact hne hu
  · have hnew : g.checksum = v := Option.some.inj hstored
    rw [hnew, sum8_set_outside f.bytes v (.inr (by omega)), ← hf]
    rintro rfl
    exact hne rfl

/-! The answers on port OP (R90, R92). -/

theorem exec_checksum_idle {s : State} (hs : s.Idle) (buf : List Byte) (start stop : Int) :
    exec (.checksum buf start stop) s = if checksumDomain buf.length start stop
      then .next (complete .checksum (.u8 (checksumValue buf start stop)) s)
      else .refused .indexOutsideBuffer := by
  simp only [exec, execChecksum, onPort_idle hs]

theorem exec_validate_idle {s : State} (hs : s.Idle) (buf : List Byte) (start stop : Int) :
    exec (.validate buf start stop) s = if validateDomain buf.length start stop
      then .next (complete .validate (.bit (validateValue buf start stop)) s)
      else .refused .indexOutsideBuffer := by
  simp only [exec, execValidate, onPort_idle hs]

theorem checksumDomain_iff (len : Nat) (start stop : Int) : checksumDomain len start stop = true ↔
    stop < start ∨ 0 ≤ start ∧ stop < len := by
  simp [checksumDomain]

theorem validateDomain_iff (len : Nat) (start stop : Int) : validateDomain len start stop = true ↔
    0 ≤ start ∧ start ≤ stop ∧ stop + 1 < len := by
  simp [validateDomain, and_assoc]

theorem checksumValue_empty (buf : List Byte) {start stop : Int} (h : start > stop) :
    checksumValue buf start stop = 0 := if_pos h

/-- The value on a range that is not empty, in the indices' own numbers (R90). -/
theorem checksumValue_eq_byteSum (buf : List Byte) {start stop : Int} (h0 : 0 ≤ start)
    (h : start ≤ stop) : checksumValue buf start stop
      = BitVec.ofNat 8 (byteSum ((buf.drop start.toNat).take (stop - start + 1).toNat)) := by
  have hlen : stop.toNat + 1 - start.toNat = (stop - start + 1).toNat := by omega
  rw [checksumValue, if_neg (by omega), sum8_eq_byteSum, hlen]

theorem toNat_checksumValue (buf : List Byte) {start stop : Int} (h0 : 0 ≤ start) (h : start ≤ stop) :
    (checksumValue buf start stop).toNat
      = byteSum ((buf.drop start.toNat).take (stop - start + 1).toNat) % 256 := by
  rw [checksumValue_eq_byteSum buf h0 h, BitVec.toNat_ofNat]

/-- VALIDATE compares the stored byte and the sum as numbers (R92). -/
theorem validateValue_iff (buf : List Byte) {start stop : Int} (h0 : 0 ≤ start) (h : start ≤ stop) :
    validateValue buf start stop = true ↔ (buf.map BitVec.toNat)[(stop + 1).toNat]?
      = some (byteSum ((buf.drop start.toNat).take (stop - start + 1).toNat) % 256) := by
  have hidx : (stop + 1).toNat = stop.toNat + 1 := by omega
  rw [validateValue, beq_iff_eq, hidx, ← toNat_checksumValue buf h0 h, List.getElem?_map]
  exact (Option.map_injective fun _ _ => BitVec.eq_of_toNat_eq).eq_iff.symm

/-- Settles O5: the domain decides the refusal, and on it the value is 0 or the sum of the range. -/
theorem checksumReturnsTheSum : Obligations.ChecksumReturnsTheSum := by
  unfold Obligations.ChecksumReturnsTheSum
  intro s buf start stop hs
  rw [exec_checksum_idle hs]
  refine ⟨fun h => ?_, fun h0 h hlen => ?_, fun h hout => if_neg ?_⟩
  · rw [if_pos ((checksumDomain_iff ..).2 (.inl h)), checksumValue_empty buf h]; rfl
  · rw [if_pos ((checksumDomain_iff ..).2 (.inr ⟨h0, hlen⟩)), checksumValue_eq_byteSum buf h0 h]; rfl
  · rw [checksumDomain_iff]; omega

/-- Settles O7: the domain decides the refusal, and on it the answer is the comparison of two bytes, which
is that of their numbers. -/
theorem validateComparesTheStoredByte : Obligations.ValidateComparesTheStoredByte := by
  unfold Obligations.ValidateComparesTheStoredByte
  intro s buf start stop hs
  rw [exec_validate_idle hs]
  refine ⟨fun h0 h hlen => ?_, fun hout => if_neg ?_⟩
  · rw [if_pos ((validateDomain_iff ..).2 ⟨h0, h, hlen⟩)]
    exact ⟨_, validateValue_iff buf h0 h, rfl⟩
  · rw [validateDomain_iff]; omega

end Sys2Proof
end

section
/-! Proofs, the encoder family (41_encoder.md): the frames BUILD returns and what they depend on (R100 to
R105). -/

namespace Sys2Proof
open Sys2Proof.Machine

/-! The operands a frame carries. -/

theorem cmdTo_action (a : Byte) (b : Bool) (e : Extra) (k : Word16) : (cmdTo a b e k).action = a := rfl

theorem cmdTo_set (a : Byte) (b : Bool) (e : Extra) (k : Word16) :
    (cmdTo a b e k).set = boolByte b := rfl

theorem cmdTo_extra (a : Byte) (b : Bool) (e : Extra) (k : Word16) : (cmdTo a b e k).extra = e := rfl

/-- The two address bytes, high byte first, are the whole 16-bit address (R68). -/
theorem cmdTo_address (a : Byte) (b : Bool) (e : Extra) (k : Word16) :
    join16 (cmdTo a b e k).addrHi (cmdTo a b e k).addrLo = k := join16_hi8_lo8 k

theorem boolByte_injective : Function.Injective boolByte := by decide

theorem cmdTo_inj {a a' : Byte} {b b' : Bool} {e e' : Extra} {k k' : Word16} :
    cmdTo a b e k = cmdTo a' b' e' k' ↔ a = a' ∧ b = b' ∧ k = k' ∧ e = e' := by
  refine ⟨fun h => ⟨?_, boolByte_injective ?_, ?_, ?_⟩, ?_⟩
  · rw [← cmdTo_action a b e k, h, cmdTo_action]
  · rw [← cmdTo_set a b e k, h, cmdTo_set]
  · rw [← cmdTo_address a b e k, h, cmdTo_address]
  · rw [← cmdTo_extra a b e k, h, cmdTo_extra]
  · rintro ⟨rfl, rfl, rfl, rfl⟩
    rfl

theorem ofNat16_eq_iff (n n' : Nat) :
    BitVec.ofNat 16 n = BitVec.ofNat 16 n' ↔ n % 65536 = n' % 65536 := by
  rw [← BitVec.toNat_inj, BitVec.toNat_ofNat, BitVec.toNat_ofNat]

/-- Settles O11: the bytes determine the frame, and the frame its operands, the address as a 16-bit word. -/
theorem buildIsInjective : Obligations.BuildIsInjective := by
  unfold Obligations.BuildIsInjective
  intro a a' b b' n n' e e'
  have hbytes : (build a b n e).bytes = (build a' b' n' e').bytes ↔ build a b n e = build a' b' n' e' :=
    ⟨CmdFrame.bytes_injective, congrArg CmdFrame.bytes⟩
  rw [hbytes, build_eq_cmdTo, build_eq_cmdTo, cmdTo_inj, ofNat16_eq_iff]

/-! BUILD's answer on port OP (R100, R103). -/

theorem exec_build_idle {s : State} (hs : s.Idle) (a : Byte) (b : Bool) (k : Int) (e : Extra) :
    exec (.build a b k e) s = if 0 ≤ k then .next (complete .build (.frame (build a b k.toNat e)) s)
      else .refused .negativeOperand := by
  simp only [exec, execBuild, onPort_idle hs, unsignedDomain, decide_eq_true_eq]

/-- Settles O8: the answer is BUILD's frame, whose bytes are those of the field table. -/
theorem buildReturnsTheFrame : Obligations.BuildReturnsTheFrame := by
  unfold Obligations.BuildReturnsTheFrame
  intro s a b k e hs hk
  refine ⟨build a b k.toNat e, build_bytes a b k.toNat e, ?_⟩
  rw [exec_build_idle hs, if_pos hk]
  rfl

/-- Settles O10: only the address mod 65536 reaches the frame, and the sign alone decides the refusal. -/
theorem buildTruncatesTheAddress : Obligations.BuildTruncatesTheAddress := by
  unfold Obligations.BuildTruncatesTheAddress
  intro s a b k e hs
  refine ⟨fun hk => ?_, fun hk => ?_⟩
  · have hmod : (0 : Int) ≤ k % 65536 := by omega
    have hnat : (k % 65536).toNat = k.toNat % 65536 := by omega
    have hframe : build a b (k % 65536).toNat e = build a b k.toNat e := by
      rw [build_eq_cmdTo, build_eq_cmdTo, hnat, (ofNat16_eq_iff ..).2 (Nat.mod_mod ..)]
    rw [exec_build_idle hs, exec_build_idle hs, if_pos hk, if_pos hmod, hframe]
  · rw [exec_build_idle hs, if_neg (by omega)]

/-! BUILD's frames under VALIDATE (R101). -/

theorem validateValue_cmdFrame (f : CmdFrame) :
    validateValue f.bytes 2 16 = (f.checksum == sum8 f.bytes 2 16) := rfl

/-- BUILD puts the fixed bytes and the checksum in place: its frames are among those the decoder takes. -/
theorem build_wellFramed (a : Byte) (b : Bool) (k : Nat) (e : Extra) : (build a b k e).WellFramed := by
  rw [build_eq_cmdTo]
  exact wellFramed_of_decodeCmd (decodeCmd_cmdTo Config.params a b e _)

/-- Settles O9: the frame is well framed, so its stored byte is the sum VALIDATE compares it with. -/
theorem builtFramesValidate : Obligations.BuiltFramesValidate := by
  unfold Obligations.BuiltFramesValidate
  intro s a b k e hs f
  have hf : f.WellFramed := build_wellFramed a b k e
  have hdomain : validateDomain f.bytes.length 2 16 = true := rfl
  have hvalue : validateValue f.bytes 2 16 = true := by
    rw [validateValue_cmdFrame, beq_iff_eq]
    exact hf.checksum
  refine ⟨?_, f.length_bytes, congrArg some hf.head, congrArg some hf.command, congrArg some hf.tail⟩
  rw [exec_validate_idle hs, if_pos hdomain, hvalue]
  rfl

end Sys2Proof
end

section
/-! Proofs, the decoder family (42_decoder.md): the result PARSE returns and the bytes it looks at (R110 to
R117). -/

namespace Sys2Proof
open Sys2Proof.Machine

theorem exec_parse_idle {s : State} (hs : s.Idle) (f : InFrame) :
    exec (.parse f) s = .next (complete .parse (.parsed (parse s.params.pmOrder f)) s) := by
  simp only [exec, execParse, onPort_idle hs]

/-- Settles O12: PARSE's four cases, the checksum first and then the command-id, each with its words read as
numbers. -/
theorem parseReturnsTheTaggedResult : Obligations.ParseReturnsTheTaggedResult := by
  unfold Obligations.ParseReturnsTheTaggedResult
  intro s f hs
  refine ⟨parse s.params.pmOrder f, exec_parse_idle hs f, parse_bad, fun hsum hdata => ?_,
    fun hsum hreply => ?_, parse_unknown⟩
  · exact ⟨_, _, _, parse_data hsum hdata, toNat_reading .., toNat_reading .., toNat_join16 ..⟩
  · exact ⟨_, parse_reply hsum hreply, toNat_join16 ..⟩

/-- The range 2..7 and the stored byte 8 leave out bytes 0 and 9 (R111). -/
theorem validateValue_head_tail (f : InFrame) (head tail : Byte) :
    validateValue { f with head := head, tail := tail }.bytes 2 7 = validateValue f.bytes 2 7 := by
  have hrange : ({ f with head := head, tail := tail }.bytes.drop 2).take 6 = (f.bytes.drop 2).take 6 := rfl
  simp only [validateValue_inFrame, sum8, hrange]

/-- Settles O13: the checksum test does not see the two bytes, and the result is made of the others. -/
theorem parseIgnoresHeadAndTail : Obligations.ParseIgnoresHeadAndTail := by
  unfold Obligations.ParseIgnoresHeadAndTail
  intro order f head tail
  simp only [parse, validateValue_head_tail]

end Sys2Proof
end

section
/-! Proofs, the scanner family (43_scanner.md): the micro-steps of DRAIN, each with what it changes, and the
instruction each runs (R120 to R129, R134, R8). -/

namespace Sys2Proof.Machine

/-! BLOCK's micro-step in each phase (R120 to R127, R140). -/

section Phases
variable {s : State}

theorem blockStep_start (hp : s.phase = .idle) (hb : s.cmdBusy = true) (hw : s.stage = .wait) :
    blockStep s = .next (startDrain s) := by
  simp [blockStep, hp, hb, hw]

theorem blockStep_send (hp : s.phase = .idle) (hb : s.cmdBusy = true) (hw : s.stage = .send) :
    blockStep s = sendStage s := by
  simp [blockStep, hp, hb, hw]

theorem blockStep_test (hp : s.phase = .test) : blockStep s = .next (testStep s) := by
  simp [blockStep, hp]

theorem blockStep_scan (hp : s.phase = .scan) : blockStep s = .next (scanStep s) := by
  simp [blockStep, hp]

/-- READ takes the ten bytes at the head of RXQ (R124). -/
theorem blockStep_read (hp : s.phase = .read) {f : InFrame} {rest : List Byte}
    (hq : s.rxq = f.bytes ++ rest) :
    blockStep s = .next { s with fb := f, rxq := rest, phase := .valid } := by
  simp [blockStep, hp, readStep, tpReadToFb, hq]

theorem blockStep_valid (hp : s.phase = .valid) : blockStep s = .next (validStep s) := by
  simp [blockStep, hp]

/-- APPLY does what PARSE of `FB` calls for (R126). -/
theorem blockStep_apply (hp : s.phase = .apply) :
    blockStep s = .next (applyResult s.params (parseFb s) s) := by
  have hrun : blockStep s = exec (classifyIn s.params s.fb) s := by simp [blockStep, hp, applyStage]
  rw [hrun, rowMeaningAgreesWithParse s, parseFb]

theorem blockStep_discard (hp : s.phase = .discard) : blockStep s = .next (discardFrame s) := by
  simp [blockStep, hp]

end Phases

/-- DISCARD is what PARSE calls for on an `Invalid` result (R127). -/
theorem applyResult_of_isInvalid {r : ParseResult} (h : isInvalid r = true) (c : Params) (s : State) :
    applyResult c r s = discardFrame s := by
  cases r with
  | invalid => rfl
  | dataReading | replyAck => exact absurd h (by simp [isInvalid])

/-! START, TEST, SCAN, READ and VALID. -/

theorem exec_drain_idle {s : State} (hs : s.Idle) :
    exec .drain s = .next (startDrain { s with latched := .drain }) := by
  simp only [exec, execDrain, onPort_idle hs]

/-- Settles O15: both starts are the START micro-step. -/
theorem drainStarts : Obligations.DrainStarts := by
  unfold Obligations.DrainStarts
  refine ⟨fun s hs => ⟨_, exec_drain_idle hs, rfl⟩, fun s hb hp hc hw => ?_⟩
  rw [step_block hb, blockStep_start (s := s.afterTurn) hp hc hw]
  rfl

/-- Settles O16: the two sides of the loop condition. -/
theorem testIsTheLoopCondition : Obligations.TestIsTheLoopCondition := by
  unfold Obligations.TestIsTheLoopCondition
  intro s hb hp
  rw [step_block hb, blockStep_test (s := s.afterTurn) hp]
  refine ⟨fun hl => ?_, fun hl => ?_⟩
  · rw [testStep_go (s := s.afterTurn) hl]
  · rw [testStep_done (s := s.afterTurn) hl]
    rfl

/-- Settles O17, by the head of RXQ. -/
theorem scanResynchronises : Obligations.ScanResynchronises := by
  unfold Obligations.ScanResynchronises
  intro s hb hp
  rw [step_block hb, blockStep_scan (s := s.afterTurn) hp]
  refine ⟨fun b q hq hne => ?_, fun hq => ?_, fun hh => ?_⟩
  · rw [scanStep_drop (s := s.afterTurn) hq hne]
  · rw [scanStep_found (s := s.afterTurn) (.inl hq)]
    simp [hq]
  · rw [scanStep_found (s := s.afterTurn) (.inr hh)]
    rfl

/-- Settles O18: the invariant has ten bytes ready, the first of them a head sentinel. -/
theorem readTakesTenBytes : Obligations.ReadTakesTenBytes := by
  unfold Obligations.ReadTakesTenBytes
  intro s hi hb hp
  have hl := (hi.readReady hp).1
  obtain ⟨f, rest, -, hq⟩ := InFrame.takeFrom_of_length hl
  refine ⟨hl, f, ?_, head_of_readReady hi hp hq, ?_⟩
  · rw [hq]; exact (List.take_left' f.length_bytes).symm
  · rw [step_block hb, blockStep_read (s := s.afterTurn) hp hq, hq, List.drop_left' f.length_bytes]

/-- PARSE does not accept exactly the frames that fail the sum or carry another command-id (R111, R116). -/
theorem isInvalid_parseFb_iff (s : State) : isInvalid (parseFb s) = true
    ↔ ¬ (inboundSumHolds s.fb = true ∧ (s.fb.commandId = 0xC0 ∨ s.fb.commandId = 0xC5)) := by
  rw [parseFb, isInvalid_parse, Bool.not_eq_true', Bool.eq_false_iff]
  simp

/-- Settles O19: VALID asks whether PARSE of `FB` is `Invalid`, the statement whether it is not. -/
theorem validChoosesApplyOrDiscard : Obligations.ValidChoosesApplyOrDiscard := by
  unfold Obligations.ValidChoosesApplyOrDiscard
  intro s hb hp
  have hphase := (if_congr (isInvalid_parseFb_iff s) rfl rfl).trans
    (ite_not _ Phase.discard Phase.apply)
  rw [step_block hb, blockStep_valid (s := s.afterTurn) hp, ← hphase]
  rfl

/-! The frames applied and discarded. -/

theorem reading_eq_ofNat (o : PmOrder) (a b : Byte) :
    reading o a b = BitVec.ofNat 16 (readingNat o a b) := by
  rw [← toNat_reading, BitVec.ofNat_toNat, BitVec.setWidth_eq]

/-- Settles O21: the two readings in numbers, then APPLY of a reading. -/
theorem dataFrameIsLatched : Obligations.DataFrameIsLatched := by
  unfold Obligations.DataFrameIsLatched
  intro s w2 w3 w4 w5 id tail
  rw [← reading_eq_ofNat, ← reading_eq_ofNat]
  rfl

/-- Settles O22: APPLY of a Reply, action by action. -/
theorem replyFramesAreLatched : Obligations.ReplyFramesAreLatched := by
  unfold Obligations.ReplyFramesAreLatched
  intro s v0 v1 v2 id tail hc v
  obtain ⟨-, -, -, -, -, hid, -, -⟩ := Params.legal_iff.1 hc
  refine ⟨⟨_, setWidth_one_eq_one_iff v, congrArg _ (applyResult_mode s.params s v0 v1 v2 id)⟩,
    ⟨_, setWidth_one_eq_one_iff v, congrArg _ (applyResult_state s.params s v0 v1 v2 id)⟩,
    congrArg _ (applyResult_interval s.params s v0 v1 v2 id),
    congrArg _ (applyResult_firmware s v0 v1 v2 id hc),
    congrArg _ (applyResult_otherAction s v0 v1 v2 id (by decide) (by decide) (by decide) hid.symm),
    fun action hw => ?_⟩
  obtain ⟨hm, -, hs, hf, hi⟩ := namedReply_eq_false (Bool.not_eq_true' _ ▸ hw)
  exact congrArg _ (applyResult_otherAction s v0 v1 v2 id hm hs hi hf)

/-- Settles O23: the two rows and the micro-step are `discardFrame`. -/
theorem invalidFramesAreDiscarded : Obligations.InvalidFramesAreDiscarded := by
  unfold Obligations.InvalidFramesAreDiscarded
  refine ⟨fun s c p0 p1 p2 p3 id k tail => ⟨rfl, rfl⟩, fun s hb hp => ?_⟩
  rw [step_block hb, blockStep_discard (s := s.afterTurn) hp]
  rfl

/-! Where BLOCK takes its instructions. -/

theorem classifyIn_of_decodeBytes {c : Params} {f : InFrame} {i : Instr}
    (h : decodeBytes c f.bytes = .ok i) : classifyIn c f = i := by
  rw [decodeBytes_in, decodeIn] at h
  split_ifs at h
  exact Except.ok.inj h

/-- Settles O39: `FB`, where the invariant makes DISCARD the meaning of the row, then `TB`, then the one
held request. -/
theorem stepRunsTheDecodedInstruction : Obligations.StepRunsTheDecodedInstruction := by
  unfold Obligations.StepRunsTheDecodedInstruction
  intro s i hb hi
  rw [step_block hb]
  refine ⟨fun hp hd => ?_, fun hp hc hw hd => ?_, fun r hs hr hd => ?_⟩
  · rw [← classifyIn_of_decodeBytes hd, ← State.afterTurn_params, ← State.afterTurn_fb,
      rowMeaningAgreesWithParse s.afterTurn]
    rcases hp with hp | hp
    · exact blockStep_apply (s := s.afterTurn) hp
    · rw [blockStep_discard (s := s.afterTurn) hp]
      exact congrArg _ (applyResult_of_isInvalid (hi.discardInvalid hp) _ _).symm
  · rw [blockStep_send (s := s.afterTurn) hp hc hw, sendStage_eq,
      exec_of_decodeCmd (s := s.afterTurn) hd]
    rfl
  · have hr' : s.afterTurn.held = [r] := hr
    have hd' : decodeRequest r = .ok i := hd
    rw [blockStep_idle (s := s.afterTurn) hs, acceptStage, hr']
    simp only [pickHeld, hd']
    rfl

/-- Settles O53: START, then TEST below ten bytes. -/
theorem drainBelowTenBytesDoesNothing : Obligations.DrainBelowTenBytesDoesNothing := by
  unfold Obligations.DrainBelowTenBytesDoesNothing
  intro s hb hs hl
  have hstep := (testIsTheLoopCondition (startDrain { s with latched := .drain }) hb rfl).2 hl
  refine ⟨_, _, exec_drain_idle hs, hstep, ?_⟩
  obtain ⟨hp, hc⟩ := hs
  simp [hp, hc]

end Sys2Proof.Machine
end

section
/-! Proofs, the scanner family (43_scanner.md): the segmentation, candidate by candidate (R132, R136), and a
DRAIN without arrivals from its first TEST to its end (R130, R131, R133, R137). -/

namespace Sys2Proof.Machine

/-! The segmentation under every schedule (R132). -/

theorem Accepted.schedule_eq {s t : State} (h : Accepted s t) :
    t.agenda = s.agenda ∧ t.later = s.later := by
  cases h <;> exact ⟨rfl, rfl⟩

/-- BLOCK takes no turn off the schedule itself (log 5). -/
theorem Micro.schedule_eq {s t : State} (h : Micro s t) :
    t.agenda = s.agenda ∧ t.later = s.later := by
  cases h with
  | accept _ ha => exact ha.schedule_eq
  | apply _ he =>
    obtain ⟨_, _, _, _, _, _, _, _, h'⟩ := exec_inbound_frame (encode_classifyIn s.params s.fb).1 s
    obtain rfl := Host.Outcome.next.inj (he.symm.trans h')
    exact ⟨rfl, rfl⟩
  | _ => exact ⟨rfl, rfl⟩

/-- Whatever bytes follow, a micro-step keeps the candidates: SCAN drops no head, READ takes the first
candidate, and no other micro-step takes a byte (R122, R124). -/
theorem Micro.seg_eq {s t : State} (hi : s.Inv) (h : Micro s t) (l : List Byte) :
    seg (s.rxq ++ l) = (if s.phase = .read then [t.fb] else []) ++ seg (t.rxq ++ l) := by
  cases h with
  | accept hs ha => simp [hs.1, ha.rxq_eq]
  | scanDrop b q hp hq hb => simp [hp, hq, seg_cons_ne hb]
  | read f rest hp hq => simp [hp, hq, seg_frame (head_of_readReady hi hp hq)]
  | apply hp he => simp [hp, (exec_classifyIn_next he).1]
  | send hp | start hp | testGo hp | testDone hp | scanRead hp | scanTest hp | valid hp | discard hp =>
    simp [hp]

theorem arrivals_cons (turn : Turn) (rest : List Turn) :
    arrivals (turn :: rest) = arrivals [turn] ++ arrivals rest := by
  cases turn <;> rfl

/-- The next turn's byte, if it is LINK_RX's, stands between RXQ and the later arrivals. -/
theorem stream_succ (n : Nat) (s : State) :
    s.stream (n + 1) = s.rxq ++ arrivals [s.turn]
      ++ arrivals (turnsAhead n s.afterTurn.agenda s.afterTurn.later) := by
  rw [List.append_assoc, ← arrivals_cons]
  rfl

/-- Of the other agents LINK_RX alone touches RXQ, and none touches the schedule (R7, R33). -/
theorem step_env_rxq {s t : State} (hb : s.blocksTurn = false) (h : step s = .next t) :
    t.rxq = s.rxq ++ arrivals [s.turn] ∧ t.agenda = s.afterTurn.agenda
      ∧ t.later = s.afterTurn.later := by
  rcases step_env hb h with ⟨b, ht, rfl⟩ | ⟨ht, rfl⟩ | ⟨r, ht, rfl⟩ | ⟨ht, rfl⟩ <;>
    simp [ht, arrivals]

/-- Settles O50: BLOCK's micro-steps keep the candidates of RXQ and of what follows it, and LINK_RX moves
a byte from the turns to come into RXQ. -/
theorem segmentationIsScheduleFree : Obligations.SegmentationIsScheduleFree := by
  unfold Obligations.SegmentationIsScheduleFree
  intro n s t hi h
  rw [stream_succ]
  generalize hl : arrivals (turnsAhead n s.afterTurn.agenda s.afterTurn.later) = l
  cases hb : s.blocksTurn with
  | true =>
    have hm := micro_of_step hb h
    have hst : t.stream n = t.rxq ++ l := by
      rw [State.stream, hm.schedule_eq.1, hm.schedule_eq.2, hl]
    calc seg (s.rxq ++ arrivals [s.turn] ++ l)
      _ = seg (s.rxq ++ l) := by rw [blocksTurn_iff.1 hb]; simp [arrivals]
      _ = (if s.phase = .read then [t.fb] else []) ++ seg (t.rxq ++ l) := hm.seg_eq hi.afterTurn l
      _ = _ := by rw [hst]; exact congrArg (· ++ _) (if_congr (by simp) rfl rfl)
  | false =>
    obtain ⟨hrxq, hagenda, hlater⟩ := step_env_rxq hb h
    have hst : t.stream n = s.rxq ++ arrivals [s.turn] ++ l := by
      rw [State.stream, hrxq, hagenda, hlater, hl]
    simp [hst]

/-! One candidate, judged (R124 to R127). -/

/-- The candidate `f` applied or discarded, as PARSE says (R126, R127). -/
def judge (f : InFrame) (s : State) : State := applyResult s.params (parse s.params.pmOrder f) s

/-- APPLY and DISCARD do not look at the phase. -/
theorem applyResult_phase (c : Params) (r : ParseResult) (s : State) (p : Phase) :
    applyResult c r { s with phase := p } = applyResult c r s := by
  obtain ⟨-, -, hrxq, -, -, -, hfb, -⟩ := applyResult_ctl c r s
  calc applyResult c r { s with phase := p }
    _ = { applyResult c r s with fb := s.fb, rxq := s.rxq } := applyResult_with c r s s.fb s.rxq p
    _ = applyResult c r s := by rw [← hfb, ← hrxq]

theorem runFor_add {j : Nat} {s t : State} (h : runFor j s = .next t) (k : Nat) :
    runFor (j + k) s = runFor k t := by
  induction j generalizing s with
  | zero => rw [Nat.zero_add, Host.Outcome.next.inj h]
  | succ j ih =>
    rw [Nat.succ_add]
    cases hs : step s with
    | next u => rw [runFor_next hs, ih (by rwa [runFor_next hs] at h)]
    | fault e => cases e
    | refused e => simp [runFor, hs] at h

/-- After VALID the candidate is applied or discarded, whichever PARSE of it calls for (R125 to R127). -/
theorem runFor_valid {s : State} (hq : s.quiet) (hp : s.phase = .valid) :
    runFor 2 s = .next (judge s.fb s) := by
  have hvalid : step s = .next (validStep s) := by rw [step_quiet hq, blockStep_valid hp]
  have hjudge : step (validStep s) = .next (applyResult s.params (parseFb s) (validStep s)) := by
    rw [step_quiet (s := validStep s) hq]
    cases hinv : isInvalid (parseFb s) with
    | true =>
      rw [blockStep_discard (by simp [hinv]), applyResult_of_isInvalid hinv]
    | false => exact blockStep_apply (s := validStep s) (by simp [hinv])
  rw [runFor_next hvalid, runFor_next hjudge]
  exact congrArg _ (applyResult_phase _ _ s _)

/-- Without arrivals a candidate is taken and judged in three steps (R124 to R127). -/
theorem runFor_read {s : State} (hq : s.quiet) (hp : s.phase = .read) {f : InFrame} {rest : List Byte}
    (hr : s.rxq = f.bytes ++ rest) :
    runFor 3 s = .next { judge f s with fb := f, rxq := rest } := by
  have hread : step s = .next { s with fb := f, rxq := rest, phase := .valid } := by
    rw [step_quiet hq, blockStep_read hp hr]
  rw [runFor_next hread]
  refine (runFor_valid (s := { s with fb := f, rxq := rest, phase := .valid }) hq rfl).trans ?_
  exact congrArg _ (applyResult_with s.params (parse s.params.pmOrder f) s f rest .valid)

/-- Settles O54: the candidate that is judged is discarded. -/
theorem invalidFrameChangesOnlyRxqAndFb : Obligations.InvalidFrameChangesOnlyRxqAndFb := by
  unfold Obligations.InvalidFrameChangesOnlyRxqAndFb
  intro s f hq hp hf hinv
  have hr : s.rxq = f.bytes ++ s.rxq.drop 10 := by rw [hf, List.take_append_drop]
  rw [runFor_read hq hp hr, judge, applyResult_of_isInvalid hinv]
  rfl

/-! A DRAIN without arrivals. -/

/-- `t` is reached from `s` in at most `n` steps. -/
def RunsWithin (n : Nat) (s t : State) : Prop := ∃ k ≤ n, runFor k s = .next t

theorem runsWithin_add {j n : Nat} {s t u : State} (h : runFor j s = .next t) (ht : RunsWithin n t u) :
    RunsWithin (j + n) s u := by
  obtain ⟨k, hk, hu⟩ := ht
  exact ⟨j + k, Nat.add_le_add_left hk j, (runFor_add h k).trans hu⟩

theorem runFor_one {s t : State} (h : step s = .next t) : runFor 1 s = .next t := runFor_next h

theorem RunsWithin.mono {m n : Nat} {s t : State} (h : RunsWithin m s t) (hmn : m ≤ n) :
    RunsWithin n s t := by
  obtain ⟨k, hk, ht⟩ := h
  exact ⟨k, hk.trans hmn, ht⟩

/-- The state in which a DRAIN from `s` without arrivals ends, when it leaves `residue` in RXQ: every
candidate of RXQ judged in stream order, the last of them in `FB`, and the result given (R130, R137). -/
def drained (residue : List Byte) (s : State) : State :=
  { applyFrames s (seg s.rxq) with
    phase := .idle, cmdBusy := false
    fb := (seg s.rxq).getLast?.getD s.fb
    rxq := residue
    completions := s.completions ++ [⟨s.latched, .bit (applyFrames s (seg s.rxq)).applied⟩] }

theorem applyFrames_cons (s : State) (f : InFrame) (fs : List InFrame) :
    applyFrames s (f :: fs) = applyFrames (judge f s) fs := rfl

/-- What the frames do does not depend on `FB`, RXQ and the phase. -/
theorem applyFrames_with (s : State) (fs : List InFrame) (f : InFrame) (q : List Byte) (p : Phase) :
    ∃ p', applyFrames { s with fb := f, rxq := q, phase := p } fs
      = { applyFrames s fs with fb := f, rxq := q, phase := p' } := by
  induction fs generalizing s p with
  | nil => exact ⟨p, rfl⟩
  | cons g fs ih =>
    have hg : judge g { s with fb := f, rxq := q, phase := p } = { judge g s with fb := f, rxq := q } :=
      applyResult_with s.params (parse s.params.pmOrder g) s f q p
    rw [applyFrames_cons, applyFrames_cons, hg]
    exact ih (judge g s) (judge g s).phase

/-- A DRAIN ends alike without bytes that no candidate takes, and from whatever phase. -/
theorem drained_with {s : State} {q : List Byte} (hq : seg q = seg s.rxq) (p : Phase)
    (residue : List Byte) : drained residue { s with rxq := q, phase := p } = drained residue s := by
  obtain ⟨p', hp'⟩ := applyFrames_with s (seg s.rxq) s.fb q p
  unfold drained
  dsimp only
  rw [hq, hp']

/-- A DRAIN ends alike when its first candidate is judged already. -/
theorem drained_judge {s : State} {f : InFrame} {rest : List Byte} (hf : f.head = Config.headByte)
    (hr : s.rxq = f.bytes ++ rest) (residue : List Byte) :
    drained residue { judge f s with fb := f, rxq := rest } = drained residue s := by
  obtain ⟨p', hp'⟩ := applyFrames_with (judge f s) (seg rest) f rest (judge f s).phase
  obtain ⟨-, -, -, -, hl, hc, -, -⟩ := applyResult_ctl s.params (parse s.params.pmOrder f) s
  unfold drained
  rw [hr, seg_frame hf, applyFrames_cons, List.getLast?_cons]
  dsimp only
  rw [hp', show (judge f s).latched = s.latched from hl,
    show (judge f s).completions = s.completions from hc]
  rfl

/-- With fewer than ten bytes there is no candidate, and TEST ends the DRAIN (R121). -/
theorem completeDrain_eq_drained {s : State} (hl : s.rxq.length < 10) :
    completeDrain s = drained s.rxq s := by
  unfold drained
  rw [seg_short hl]
  rfl

/-- A step without arrivals is BLOCK's micro-step. -/
theorem runsWithin_blockStep {n : Nat} {s t u : State} (hq : s.quiet) (h : blockStep s = .next t)
    (ht : RunsWithin n t u) : RunsWithin (n + 1) s u := by
  rw [Nat.add_comm]
  exact runsWithin_add (runFor_one ((step_quiet hq).trans h)) ht

/-- Below ten bytes TEST ends the DRAIN; else it is as long as the run from SCAN (R121). -/
theorem drain_from_test {n : Nat} {s : State} (hq : s.quiet) (hp : s.phase = .test)
    (hscan : 10 ≤ s.rxq.length →
      RunsWithin n { s with phase := .scan } (drained (scanResidue s.rxq) { s with phase := .scan })) :
    RunsWithin (n + 1) s (drained (drainResidue s.rxq) s) := by
  unfold drainResidue
  split_ifs with hl
  · refine runsWithin_blockStep (t := completeDrain s) hq (by rw [blockStep_test hp, testStep_done hl])
      ⟨0, Nat.zero_le n, ?_⟩
    rw [← completeDrain_eq_drained hl]
    rfl
  · have hl := not_lt.1 hl
    refine runsWithin_blockStep hq (by rw [blockStep_test hp, testStep_go hl]) ?_
    rw [← drained_with (s := s) rfl .scan]
    exact hscan hl

/-- READ takes a candidate, which is judged, and the DRAIN goes on with the rest (R124 to R127). -/
theorem drain_from_read {n : Nat} {s : State} (hq : s.quiet) (hp : s.phase = .read) {f : InFrame}
    {rest : List Byte} (hf : f.head = Config.headByte) (hr : s.rxq = f.bytes ++ rest)
    (htest : ∀ u : State, u.quiet → u.phase = .test → u.rxq = rest →
      RunsWithin n u (drained (drainResidue u.rxq) u)) :
    RunsWithin (3 + n) s (drained (scanResidue s.rxq) s) := by
  obtain ⟨ha, hl, -, ht, -, -, -, -⟩ := applyResult_ctl s.params (parse s.params.pmOrder f) s
  have hrun := htest { judge f s with fb := f, rxq := rest } ⟨ha.trans hq.1, hl.trans hq.2⟩ ht rfl
  rw [drained_judge hf hr] at hrun
  rw [hr, scanResidue_frame hf]
  exact runsWithin_add (runFor_read hq hp hr) hrun

/-- Where SCAN stands: at the end of the queue or at a head, or at a byte to drop (R122, R123). -/
theorem scan_cases (q : List Byte) :
    (q = [] ∨ q.head? = some Config.headByte) ∨ ∃ b q', q = b :: q' ∧ b ≠ Config.headByte := by
  cases q with
  | nil => exact .inl (.inl rfl)
  | cons b q' =>
    by_cases hb : b = Config.headByte
    · exact .inl (.inr (by rw [List.head?_cons, hb]))
    · exact .inr ⟨b, q', rfl, hb⟩

theorem scanResidue_of_short {q : List Byte} (hq : q = [] ∨ q.head? = some Config.headByte)
    (hl : q.length < 10) : scanResidue q = q := by
  cases q with
  | nil => rw [scanResidue]
  | cons b q' =>
    obtain rfl : b = Config.headByte := by simpa using hq
    exact scanResidue_short (by rw [List.length_cons] at hl; omega)

/-- From SCAN, by the bytes left: a byte that is no head is dropped; a head with nine bytes behind it is a
candidate; with fewer, or on an empty queue, the DRAIN ends (R122 to R127, R133). -/
theorem drain_from_scan {s : State} (hq : s.quiet) (hp : s.phase = .scan) :
    RunsWithin (s.rxq.length + 6 * (s.rxq.length / 10) + 2) s (drained (scanResidue s.rxq) s) := by
  induction hn : s.rxq.length using Nat.strong_induction_on generalizing s with
  | _ n ih =>
  subst hn
  rcases scan_cases s.rxq with hstop | ⟨b, q, hr, hb⟩
  · have hfound := scanStep_found hstop
    by_cases hl : 10 ≤ s.rxq.length
    · obtain ⟨f, rest, -, hr⟩ := InFrame.takeFrom_of_length hl
      have hf : f.head = Config.headByte := by simpa [hr, InFrame.bytes] using hstop
      have hlen : s.rxq.length = rest.length + 10 := by simp [hr, Nat.add_comm]
      rw [if_pos hl] at hfound
      have hread := drain_from_read (s := { s with phase := .read }) hq rfl hf hr fun u huq hup hur =>
        drain_from_test huq hup fun _ =>
          ih rest.length (by omega) (s := { u with phase := .scan }) huq rfl (congrArg _ hur)
      rw [drained_with (s := s) rfl] at hread
      exact (runsWithin_blockStep hq ((blockStep_scan hp).trans (congrArg _ hfound)) hread).mono
        (by omega)
    · have hl := not_le.1 hl
      rw [if_neg (by omega)] at hfound
      have htest : RunsWithin 1 { s with phase := .test }
          (drained (drainResidue s.rxq) { s with phase := .test }) :=
        drain_from_test hq rfl fun h => absurd h (not_le.2 hl)
      rw [drained_with (s := s) rfl, drainResidue, if_pos hl] at htest
      rw [scanResidue_of_short hstop hl]
      exact (runsWithin_blockStep hq ((blockStep_scan hp).trans (congrArg _ hfound)) htest).mono
        (by omega)
  · have hlen : s.rxq.length = q.length + 1 := by rw [hr, List.length_cons]
    have hrest := ih q.length (by omega) (s := { s with rxq := q }) hq hp rfl
    have hdrop : blockStep s = .next { s with rxq := q } := by
      rw [blockStep_scan hp, scanStep_drop hr hb]
    have hd := drained_with (s := s) (q := q) (by rw [hr, seg_cons_ne hb]) s.phase
    have hres : scanResidue s.rxq = scanResidue q := by rw [hr, scanResidue_ne hb]
    rw [hd] at hrest
    rw [hres]
    exact (runsWithin_blockStep hq hdrop hrest).mono (by omega)

/-- Settles O51: TEST, then the run from SCAN. -/
theorem drainRunsToCompletion : Obligations.DrainRunsToCompletion := by
  unfold Obligations.DrainRunsToCompletion
  intro s hq hp u
  obtain ⟨k, hk, hrun⟩ := drain_from_test hq hp fun _ =>
    drain_from_scan (s := { s with phase := .scan }) hq rfl
  change k ≤ s.rxq.length + 6 * (s.rxq.length / 10) + 2 + 1 at hk
  exact ⟨k, by omega, hrun⟩

end Sys2Proof.Machine
end

section
/-! Proofs, the scanner family (43_scanner.md): operations complete when arrivals end, and need not when they
do not (R133, R194). What bounds a run is, in this order, the bytes still to arrive, the work BLOCK has
left, and the turns before BLOCK's next. -/

namespace Sys2Proof.Machine

/-! The schedule. -/

/-- How many turns of other agents come before BLOCK's next, on a schedule that settles. -/
def turnsToBlock (agenda : List Turn) : Later → Nat
  | .cycle first rest => (agenda ++ first :: rest).idxOf .block
  | .block | .free _ => agenda.idxOf .block

theorem arrivals_eq_nil {l : List Turn} (h : ∀ turn ∈ l, arrivals [turn] = []) :
    arrivals l = [] := by
  induction l with
  | nil => rfl
  | cons turn rest ih =>
    rw [arrivals_cons, h turn List.mem_cons_self, ih fun u hu => h u (List.mem_cons_of_mem turn hu),
      List.append_nil]

theorem envSettles_iff {agenda : List Turn} {later : Later} : envSettles agenda later = true ↔
    (∀ turn ∈ agenda, turn ≠ .reset) ∧ envSettles [] later = true := by
  simp [envSettles]

theorem envSettles_cycle {first : Turn} {rest : List Turn} :
    envSettles [] (.cycle first rest) = true ↔
      (∀ turn ∈ first :: rest, turn ≠ .reset ∧ arrivals [turn] = []) ∧ .block ∈ first :: rest := by
  simp only [envSettles, List.all_nil, Bool.true_and, Bool.and_eq_true, List.all_eq_true,
    decide_eq_true_eq, List.isEmpty_iff, List.contains_iff_mem]

theorem turnsToBlock_cons {turn : Turn} (h : turn ≠ .block) (rest : List Turn) (later : Later) :
    turnsToBlock (turn :: rest) later = turnsToBlock rest later + 1 := by
  cases later <;> exact List.idxOf_cons_ne _ h

theorem turnsToBlock_cycle {first : Turn} {rest : List Turn} (hne : first ≠ .block)
    (h : .block ∈ first :: rest) :
    turnsToBlock rest (.cycle first rest) < turnsToBlock [] (.cycle first rest) := by
  have hrest : Turn.block ∈ rest := (List.mem_cons.1 h).resolve_left (Ne.symm hne)
  calc turnsToBlock rest (.cycle first rest)
    _ = rest.idxOf .block := List.idxOf_append_of_mem hrest
    _ < rest.idxOf .block + 1 := Nat.lt_succ_self _
    _ = turnsToBlock [] (.cycle first rest) := (List.idxOf_cons_ne rest hne).symm

/-- A turn of a schedule that settles: it is no RESET, what follows settles too, a byte that arrives is
one of the finitely many, and BLOCK's turn comes closer (R194). -/
theorem envSettles_nextTurn {agenda : List Turn} {later : Later} (h : envSettles agenda later = true) :
    (nextTurn agenda later).1 ≠ .reset
    ∧ envSettles (nextTurn agenda later).2.1 (nextTurn agenda later).2.2 = true
    ∧ arrivals agenda = arrivals [(nextTurn agenda later).1] ++ arrivals (nextTurn agenda later).2.1
    ∧ ((nextTurn agenda later).1 ≠ .block →
      turnsToBlock (nextTurn agenda later).2.1 (nextTurn agenda later).2.2
        < turnsToBlock agenda later) := by
  cases agenda with
  | cons turn rest =>
    obtain ⟨hagenda, hlater⟩ := envSettles_iff.1 h
    obtain ⟨hturn, hrest⟩ := List.forall_mem_cons.1 hagenda
    exact ⟨hturn, envSettles_iff.2 ⟨hrest, hlater⟩, arrivals_cons turn rest, fun hne =>
      (Nat.lt_succ_self _).trans_eq (turnsToBlock_cons hne rest later).symm⟩
  | nil =>
    cases later with
    | block => exact ⟨by simp, h, rfl, fun hne => absurd rfl hne⟩
    | free k => exact absurd h (by simp [envSettles])
    | cycle first rest =>
      obtain ⟨hall, hblock⟩ := envSettles_cycle.1 h
      obtain ⟨⟨hfirst, hnone⟩, hrest⟩ := List.forall_mem_cons.1 hall
      refine ⟨hfirst, envSettles_iff.2 ⟨fun turn ht => (hrest turn ht).1, h⟩, ?_,
        fun hne => turnsToBlock_cycle hne hblock⟩
      rw [nextTurn_cycle, hnone, arrivals_eq_nil fun turn ht => (hrest turn ht).2]
      rfl

theorem settles_turn {s : State} (h : envSettles s.agenda s.later = true) :
    s.turn ≠ .reset ∧ envSettles s.afterTurn.agenda s.afterTurn.later = true
    ∧ arrivals s.agenda = arrivals [s.turn] ++ arrivals s.afterTurn.agenda
    ∧ (s.turn ≠ .block →
      turnsToBlock s.afterTurn.agenda s.afterTurn.later < turnsToBlock s.agenda s.later) :=
  envSettles_nextTurn h

/-! BLOCK's work. -/

/-- How far BLOCK is from the end in its phase: every micro-step that takes no byte lowers it (R120 to
R127). -/
def phaseWork (s : State) : Nat :=
  match s.phase with
  | .read => 0
  | .scan => 1
  | .test => if s.rxq.length < 10 then 0 else 2
  | .apply | .discard => 3
  | .valid => 4
  | .idle => match s.stage with
    | .wait => 5
    | .send => 6

/-- What bounds BLOCK's work until the operation in progress completes, if no byte arrives. -/
def State.work (s : State) : Nat := s.rxq.length + phaseWork s

theorem work_lt_of_test {s t : State} (ht : t.phase = .test) (hq : t.rxq = s.rxq)
    (hs : 3 ≤ phaseWork s) : t.work < s.work := by
  have htest : phaseWork t ≤ 2 := by
    simp only [phaseWork, ht]
    split_ifs <;> omega
  simp only [State.work, hq]
  omega

/-- The operation in progress goes on from `s` to `t`: it has not completed and is the same. -/
def GoesOn (s t : State) : Prop :=
  ¬ t.Idle ∧ t.latched = s.latched ∧ t.completions = s.completions

/-- The operation in progress in `s` has completed in `t`, with the flag as its bit (R121, R140). -/
def CompletedIn (s t : State) : Prop :=
  t.Idle ∧ t.completions = s.completions ++ [⟨s.latched, .bit t.applied⟩]

/-- A micro-step of a busy block completes the operation or takes a part of its work (R133). -/
theorem Micro.completes_or_works {s t : State} (hs : ¬ s.Idle) (h : Micro s t) :
    CompletedIn s t ∨ GoesOn s t ∧ t.work < s.work := by
  cases h with
  | accept hi => exact absurd hi hs
  | testDone => exact .inl ⟨⟨rfl, rfl⟩, rfl⟩
  | send hp hb hw =>
    exact .inr ⟨⟨by simp [hb], rfl, rfl⟩, by simp [State.work, phaseWork, hp, hw, sendFrame]⟩
  | start hp hb hw =>
    exact .inr ⟨⟨by simp, rfl, rfl⟩, work_lt_of_test rfl rfl (by simp [phaseWork, hp, hw])⟩
  | testGo hp hl =>
    exact .inr ⟨⟨by simp, rfl, rfl⟩, by simp [State.work, phaseWork, hp, not_lt.2 hl]⟩
  | scanDrop b q hp hq hb =>
    exact .inr ⟨⟨by simp [hp], rfl, rfl⟩, by simp [State.work, phaseWork, hp, hq]⟩
  | scanRead hp => exact .inr ⟨⟨by simp, rfl, rfl⟩, by simp [State.work, phaseWork, hp]⟩
  | scanTest hp _ hl => exact .inr ⟨⟨by simp, rfl, rfl⟩, by simp [State.work, phaseWork, hp, hl]⟩
  | read f rest hp hq =>
    exact .inr ⟨⟨by simp, rfl, rfl⟩, by simp [State.work, phaseWork, hp, hq]; omega⟩
  | valid hp =>
    refine .inr ⟨⟨fun h => validStep_phase_ne_idle s h.1, rfl, rfl⟩, ?_⟩
    cases hv : isInvalid (parseFb s) <;> simp [State.work, phaseWork, hp, hv]
  | apply hp he =>
    obtain ⟨_, _, _, _, _, _, _, _, h'⟩ := exec_inbound_frame (encode_classifyIn s.params s.fb).1 s
    obtain rfl := Host.Outcome.next.inj (he.symm.trans h')
    exact .inr ⟨⟨by simp, rfl, rfl⟩, work_lt_of_test rfl rfl (by simp [phaseWork, hp])⟩
  | discard hp =>
    exact .inr ⟨⟨by simp, rfl, rfl⟩, work_lt_of_test rfl rfl (by simp [phaseWork, hp])⟩

/-! Every turn brings the completion nearer. -/

/-- What is left before a completion: bytes to arrive, then BLOCK's work, then turns before BLOCK's. -/
def State.remaining (s : State) : Nat ×ₗ Nat ×ₗ Nat :=
  toLex ((arrivals s.agenda).length, toLex (s.work, turnsToBlock s.agenda s.later))

theorem remaining_lt_iff {s t : State} : t.remaining < s.remaining ↔
    (arrivals t.agenda).length < (arrivals s.agenda).length
    ∨ (arrivals t.agenda).length = (arrivals s.agenda).length
      ∧ (t.work < s.work
        ∨ t.work = s.work ∧ turnsToBlock t.agenda t.later < turnsToBlock s.agenda s.later) := by
  simp [State.remaining, Prod.Lex.toLex_lt_toLex]

/-- A busy block is not refused (R12). -/
theorem step_next_of_busy {s : State} (hi : s.Inv) (hs : ¬ s.Idle) : ∃ t, step s = .next t := by
  cases h : step s with
  | next t => exact ⟨t, rfl⟩
  | fault e => cases e
  | refused e =>
    obtain ⟨-, hidle, -⟩ := onlyRequestsAreRefused s e hi h
    exact absurd hidle hs

/-- A turn of LINK_RX takes a byte of those to arrive, a turn of BLOCK a part of its work, and another
turn brings BLOCK's closer. -/
theorem step_completes_or_nears {s t : State} (hs : ¬ s.Idle) (he : envSettles s.agenda s.later = true)
    (h : step s = .next t) :
    CompletedIn s t
    ∨ GoesOn s t ∧ envSettles t.agenda t.later = true ∧ t.remaining < s.remaining := by
  obtain ⟨hreset, hsettles, harr, hnear⟩ := settles_turn he
  rw [remaining_lt_iff]
  cases hb : s.blocksTurn with
  | true =>
    have hm := micro_of_step hb h
    obtain ⟨ha, hl⟩ := hm.schedule_eq
    rw [blocksTurn_iff.1 hb] at harr
    refine (hm.completes_or_works (s := s.afterTurn) hs).imp id fun ⟨hgo, hwork⟩ => ⟨hgo, ?_, ?_⟩
    · rw [ha, hl]; exact hsettles
    · rw [ha, harr]
      exact .inr ⟨rfl, .inl hwork⟩
  | false =>
    have hnear := hnear fun ht => by simp [blocksTurn_iff.2 ht] at hb
    refine .inr ?_
    rcases step_env hb h with ⟨b, ht, rfl⟩ | ⟨ht, rfl⟩ | ⟨r, ht, rfl⟩ | ⟨ht, rfl⟩
    · rw [ht] at harr
      refine ⟨⟨hs, rfl, rfl⟩, hsettles, .inl ?_⟩
      rw [harr, List.length_append]
      exact Nat.lt_add_of_pos_left Nat.one_pos
    · rw [ht] at harr
      exact ⟨⟨hs, rfl, rfl⟩, hsettles, .inr ⟨by rw [harr]; rfl, .inr ⟨rfl, hnear⟩⟩⟩
    · rw [ht] at harr
      exact ⟨⟨hs, rfl, rfl⟩, hsettles, .inr ⟨by rw [harr]; rfl, .inr ⟨rfl, hnear⟩⟩⟩
    · exact absurd ht hreset

/-- Settles O59, by induction on what is left before the completion. -/
theorem operationsCompleteWhenArrivalsEnd : Obligations.OperationsCompleteWhenArrivalsEnd := by
  unfold Obligations.OperationsCompleteWhenArrivalsEnd
  intro s hi hs he
  change ∃ k t, runFor k s = .next t ∧ CompletedIn s t
  induction hr : s.remaining using WellFoundedLT.induction generalizing s with
  | _ r ih =>
  subst hr
  obtain ⟨t, hstep⟩ := step_next_of_busy hi hs
  rcases step_completes_or_nears hs he hstep with hdone | ⟨⟨hbusy, hlatched, hcompl⟩, hsettles, hlt⟩
  · exact ⟨1, t, runFor_one hstep, hdone⟩
  · obtain ⟨k, u, hrun, hidle, hu⟩ :=
      ih t.remaining hlt t (invariantIsKeptByEveryStep s t hi hstep) hbusy hsettles rfl
    rw [hcompl, hlatched] at hu
    exact ⟨k + 1, u, (runFor_next hstep).trans hrun, hidle, hu⟩

/-! Arrivals without end. -/

/-- SCAN among bytes that are no head, on a schedule that brings such a byte `b` before each turn of
BLOCK for ever: LINK_RX has the next turn, or BLOCK has it and finds a byte. -/
structure HeldInScan (b : Byte) (s : State) : Prop where
  phase : s.phase = .scan
  noHead : ∀ x ∈ s.rxq, x ≠ Config.headByte
  later : s.later = .cycle (.rx b) [.block]
  agenda : s.agenda = [] ∨ s.agenda = [.block] ∧ s.rxq ≠ []

/-- LINK_RX brings a byte, BLOCK drops one, and nothing completes (R122). -/
theorem HeldInScan.step {b : Byte} (hb : b ≠ Config.headByte) {s : State} (h : HeldInScan b s) :
    ∃ t, step s = .next t ∧ HeldInScan b t ∧ t.completions = s.completions := by
  obtain ⟨hp, hx, hl, ha | ⟨ha, hne⟩⟩ := h
  · obtain ⟨hturn, hafter⟩ := turn_afterTurn_of_nextTurn (s := s) (by rw [ha, hl, nextTurn_cycle])
    refine ⟨_, step_rx hturn, ⟨hp, ?_, ?_, .inr ⟨?_, ?_⟩⟩, rfl⟩
    · simpa [or_imp, forall_and] using ⟨hx, hb⟩
    all_goals simp [hafter]
  · obtain ⟨hturn, hafter⟩ := turn_afterTurn_of_nextTurn (s := s) (by rw [ha, nextTurn_cons])
    obtain ⟨x, q, hq⟩ := List.exists_cons_of_ne_nil hne
    have hx' : x ≠ Config.headByte := hx x (by rw [hq]; exact List.mem_cons_self)
    refine ⟨_, (scanResynchronises s (blocksTurn_iff.2 hturn) hp).1 x q hq hx',
      ⟨hp, fun y hy => hx y (by rw [hq]; exact List.mem_cons_of_mem x hy), ?_, .inl ?_⟩, rfl⟩
    all_goals simp [hafter, hl]

/-- Settles O60: every step keeps the scanner in SCAN. -/
theorem unendingArrivalsHoldADrain : Obligations.UnendingArrivalsHoldADrain := by
  unfold Obligations.UnendingArrivalsHoldADrain
  intro n s b hb hp hx ha hl
  have hs : HeldInScan b s := ⟨hp, hx, hl, .inl ha⟩
  clear hp hx ha hl
  induction n generalizing s with
  | zero => exact ⟨s, rfl, hs.phase, rfl⟩
  | succ n ih =>
    obtain ⟨t, hstep, ht, hc⟩ := hs.step hb
    obtain ⟨u, hrun, hu, hcu⟩ := ih t ht
    exact ⟨u, (runFor_next hstep).trans hrun, hu, hcu.trans hc⟩

end Sys2Proof.Machine
end

section
/-! Proofs, the commands family (44_commands.md): the five command forms, from their acceptance to the end
of their DRAIN (R140 to R148). -/

namespace Sys2Proof.Machine

/-! Acceptance with stage 1, and stage 2 (R140, R141). -/

section Forms
variable {s : State} (hs : s.Idle) (i : Instr) (n : OpName) (a : Byte) (b : Bool) {addr : Option Int}
include hs

theorem commandForm_refuses (ha : addr.getD 0xFFFF < 0) (e : Extra) :
    commandForm i n a b addr e s = .refused .negativeOperand := by
  simp [commandForm, onPort_idle hs, unsignedDomain_addr_neg ha]

theorem commandForm_accepts (ha : 0 ≤ addr.getD 0xFFFF) (e : Extra) :
    commandForm i n a b addr e s = .next (startForm n a b (addr.getD 0xFFFF).toNat e s) := by
  rw [commandForm, onPort_idle hs, if_pos (unsignedDomain_addr ha)]
  rfl

end Forms

/-- Settles O30: stage 2 is the writing of `TB`, whether or not the bytes are a frame. -/
theorem stageTwoWritesTb : Obligations.StageTwoWritesTb := by
  unfold Obligations.StageTwoWritesTb
  intro s hb hp hc hw
  rw [step_block hb, blockStep_send (s := s.afterTurn) hp hc hw, sendStage_eq]
  rfl

/-- After its acceptance a form's frame is in `TB`, and BLOCK's next turn writes it (R140, R141). -/
theorem startForm_then_sends {s : State} (hp : s.phase = .idle) (n : OpName) (f : CmdFrame)
    (hb : s.blocksTurn = true) :
    step { s with cmdBusy := true, latched := n, stage := .send, tb := f } = .next { s.afterTurn with
      cmdBusy := true, latched := n, stage := .wait, tb := f, txq := s.txq ++ f.bytes } :=
  stageTwoWritesTb { s with cmdBusy := true, latched := n, stage := .send, tb := f } hb hp rfl rfl

/-- A form with one value byte `v` builds the frame that carries it at `EXTRA_AT_VALUE`, then sends it
(R144 to R146). -/
theorem valueForm_builds_and_sends {s : State} (hs : s.Idle) (i : Instr) (n : OpName) (a v : Byte)
    (addr : Option Int) :
    (0 ≤ addr.getD 0xFFFF → ∃ f : CmdFrame,
      (s.params.legal = true →
        f.bytes = commandBytes a 1 (valueBytes s.params v) (addr.getD 0xFFFF).toNat)
      ∧ commandForm i n a true addr (valueExtra s.params v) s
        = .next { s with cmdBusy := true, latched := n, stage := .send, tb := f }
      ∧ (s.blocksTurn = true → step { s with cmdBusy := true, latched := n, stage := .send, tb := f }
        = .next { s.afterTurn with
          cmdBusy := true, latched := n, stage := .wait, tb := f, txq := s.txq ++ f.bytes }))
    ∧ (addr.getD 0xFFFF < 0 →
      commandForm i n a true addr (valueExtra s.params v) s = .refused .negativeOperand) := by
  refine ⟨fun ha => ⟨_, fun hc => ?_, commandForm_accepts hs i n a true ha _,
    startForm_then_sends hs.1 n _⟩, fun ha => commandForm_refuses hs i n a true ha _⟩
  rw [build_bytes, valueExtra_bytes hc]
  rfl

/-- Settles O26: the value byte is that of `passive`. -/
theorem setModeBuildsAndSends : Obligations.SetModeBuildsAndSends := by
  unfold Obligations.SetModeBuildsAndSends
  intro s passive addr hs
  exact valueForm_builds_and_sends hs (.setMode passive addr) .setMode Config.actMode
    (boolByte passive) addr

/-- Settles O27: the value byte is that of `awake`. -/
theorem setStateBuildsAndSends : Obligations.SetStateBuildsAndSends := by
  unfold Obligations.SetStateBuildsAndSends
  intro s awake addr hs
  exact valueForm_builds_and_sends hs (.setState awake addr) .setState Config.actState
    (boolByte awake) addr

/-- Settles O28: the value byte is the clamped number of minutes. -/
theorem setIntervalClampsAndSends : Obligations.SetIntervalClampsAndSends := by
  unfold Obligations.SetIntervalClampsAndSends
  intro s minutes addr hs
  dsimp only
  rw [← minutesByte_eq]
  exact valueForm_builds_and_sends hs (.setInterval minutes addr) .setInterval Config.actInterval
    (minutesByte minutes) addr

/-- Settles O29: no extra byte is set, and the set flag is 0. -/
theorem queryBuildsAndSends : Obligations.QueryBuildsAndSends := by
  unfold Obligations.QueryBuildsAndSends
  intro s addr hs
  exact ⟨fun ha => ⟨_, build_bytes Config.actQuery false _ Extra.zero,
      commandForm_accepts hs (.query addr) .query Config.actQuery false ha _,
      startForm_then_sends hs.1 .query _⟩,
    fun ha => commandForm_refuses hs (.query addr) .query Config.actQuery false ha _⟩

/-- SETID looks at its own operand before the address (R143, D20). -/
theorem exec_setId_idle {s : State} (hs : s.Idle) (id : Int) (addr : Option Int) :
    exec (.setId id addr) s = if 0 ≤ id
      then commandForm (.setId id addr) .setId Config.actId true addr
        (newIdExtra s.params (hi8 id.toNat) (lo8 id.toNat)) s
      else .refused .negativeOperand := by
  simp only [exec, execSetId, onPort_idle hs, unsignedDomain, decide_eq_true_eq]

/-- Settles O25: the id and the address each decide the refusal, and the frame carries both. -/
theorem setIdBuildsAndSends : Obligations.SetIdBuildsAndSends := by
  unfold Obligations.SetIdBuildsAndSends
  intro s id addr hs
  rw [exec_setId_idle hs]
  refine ⟨fun hid ha => ?_, fun hneg => ?_⟩
  · rw [if_pos hid]
    refine ⟨_, fun hc => ?_, commandForm_accepts hs _ .setId Config.actId true ha _,
      startForm_then_sends hs.1 .setId _⟩
    rw [build_bytes, newIdExtra_bytes hc]
    rfl
  · split_ifs with hid
    · exact commandForm_refuses hs _ _ _ _ (hneg.resolve_left (not_lt.2 hid)) _
    · rfl

/-! Stage 3, the delay (R142). -/

/-- What the links' turns `ts` make of a state, but for the schedule: the arrivals stand behind RXQ, and
each turn of LINK_TX has moved a byte, if there was one, to the record of sent bytes (logs 16, 27, 28). -/
def throughDelay (ts : List Turn) (s : State) : State :=
  { s with
    rxq := s.rxq ++ arrivals ts
    txq := s.txq.drop (ts.count .tx)
    sent := s.sent ++ s.txq.take (ts.count .tx) }

theorem throughDelay_nil (s : State) : throughDelay [] s = s := by
  simp [throughDelay, arrivals]

theorem throughDelay_rx (b : Byte) (ts : List Turn) (s : State) :
    throughDelay (.rx b :: ts) s = throughDelay ts (linkRx b s) := by
  simp [throughDelay, arrivals, linkRx]

theorem throughDelay_tx (ts : List Turn) (s : State) :
    throughDelay (.tx :: ts) s = throughDelay ts (linkTx s) := by
  cases h : s.txq <;> simp [throughDelay, arrivals, linkTx, h]

/-- Taking turns off the schedule changes the schedule only. -/
theorem afterTurns_frame (n : Nat) (s : State) :
    ∃ agenda later, s.afterTurns n = { s with agenda := agenda, later := later } := by
  induction n generalizing s with
  | zero => exact ⟨_, _, rfl⟩
  | succ n ih => exact ih s.afterTurn

theorem afterTurns_linkRx (n : Nat) (b : Byte) (s : State) :
    (linkRx b s).afterTurns n = linkRx b (s.afterTurns n) := by
  induction n generalizing s with
  | zero => rfl
  | succ n ih => exact ih s.afterTurn

theorem afterTurns_linkTx (n : Nat) (s : State) : (linkTx s).afterTurns n = linkTx (s.afterTurns n) := by
  induction n generalizing s with
  | zero => rfl
  | succ n ih => exact ih s.afterTurn

/-- The links take their turns, and BLOCK's next starts the DRAIN (R142, R120). -/
theorem runFor_delay {s : State} {ts : List Turn} (hp : s.phase = .idle) (hc : s.cmdBusy = true)
    (hw : s.stage = .wait) (hts : ∀ turn ∈ ts, turn = .tx ∨ ∃ b, turn = .rx b)
    (hahead : turnsAhead (ts.length + 1) s.agenda s.later = ts ++ [.block]) :
    runFor (ts.length + 1) s = .next (startDrain (throughDelay ts (s.afterTurns (ts.length + 1)))) := by
  induction ts generalizing s with
  | nil =>
    obtain ⟨hturn, -⟩ := List.cons.inj hahead
    rw [throughDelay_nil]
    exact runFor_one (drainStarts.2 s (blocksTurn_iff.2 hturn) hp hc hw)
  | cons turn ts ih =>
    obtain ⟨hturn, hrest⟩ := List.cons.inj hahead
    obtain ⟨hlink, hlinks⟩ := List.forall_mem_cons.1 hts
    rcases hlink with rfl | ⟨b, rfl⟩
    · rw [List.length_cons, runFor_next (step_tx hturn), throughDelay_tx,
        ih (s := linkTx s.afterTurn) hp hc hw hlinks hrest, afterTurns_linkTx]
      rfl
    · rw [List.length_cons, runFor_next (step_rx hturn), throughDelay_rx,
        ih (s := linkRx b s.afterTurn) hp hc hw hlinks hrest, afterTurns_linkRx]
      rfl

/-- Settles O31: the links' turns and the start, on queues that the schedule leaves alone. -/
theorem delayAdmitsArrivals : Obligations.DelayAdmitsArrivals := by
  unfold Obligations.DelayAdmitsArrivals
  intro s ts hp hc hw hts hahead
  obtain ⟨agenda, later, hframe⟩ := afterTurns_frame (ts.length + 1) s
  rw [runFor_delay hp hc hw hts hahead, hframe]
  rfl

/-! The whole form without arrivals (R140, R148). -/

/-- Every form on an idle block is accepted on operands in its domain, with a frame of a command-form row
(R77, R140). -/
theorem exec_form_idle {s : State} (hs : s.Idle) {i : Instr} {r : OpRequest}
    (hw : i.wf s.params = true) (hi : encode s.params i = .op r) (hf : isFormName r.name = true) :
    ∃ f : CmdFrame, (s.params.legal = true → holdsFormFrame s.params f = true)
      ∧ exec i s = .next { s with cmdBusy := true, latched := r.name, stage := .send, tb := f } := by
  cases i <;> simp only [encode, reduceCtorEq, Code.op.injEq] at hi <;> subst hi
  case setId id addr =>
    obtain ⟨hid, ha⟩ := Bool.and_eq_true_iff.1 hw
    refine ⟨_, (holdsFormFrame_id · id.toNat (addr.getD 0xFFFF).toNat), ?_⟩
    rw [exec_setId_idle hs, if_pos (of_decide_eq_true hid)]
    exact commandForm_accepts hs _ .setId Config.actId true (of_decide_eq_true ha) _
  case setMode passive addr =>
    exact ⟨_, (holdsFormFrame_mode · passive _),
      commandForm_accepts hs _ .setMode Config.actMode true (of_decide_eq_true hw) _⟩
  case setState awake addr =>
    exact ⟨_, (holdsFormFrame_state · awake _),
      commandForm_accepts hs _ .setState Config.actState true (of_decide_eq_true hw) _⟩
  case setInterval minutes addr =>
    exact ⟨_, (holdsFormFrame_interval · minutes _),
      commandForm_accepts hs _ .setInterval Config.actInterval true (of_decide_eq_true hw) _⟩
  case query addr =>
    exact ⟨_, fun _ => holdsFormFrame_query s.params _,
      commandForm_accepts hs _ .query Config.actQuery false (of_decide_eq_true hw) _⟩
  all_goals exact absurd hf Bool.false_ne_true

/-- `s` with a command form named `n` in its delay, the form's frame `f` in `TB` and the bytes `q` in
TXQ (R140). -/
def inDelay (n : OpName) (f : CmdFrame) (q : List Byte) (s : State) : State :=
  { s with cmdBusy := true, latched := n, stage := .wait, tb := f, txq := q }

section InDelay
variable (n : OpName) (f : CmdFrame) (q : List Byte)

/-- APPLY and DISCARD neither see nor touch what belongs to the command form (R136, R149). -/
theorem applyResult_inDelay (c : Params) (r : ParseResult) (s : State) :
    applyResult c r (inDelay n f q s) = inDelay n f q (applyResult c r s) := by
  cases r with
  | dataReading | invalid => rfl
  | replyAck =>
    simp only [applyResult, latchReply]
    split_ifs <;> rfl

theorem applyFrames_inDelay (s : State) (fs : List InFrame) :
    applyFrames (inDelay n f q s) fs = inDelay n f q (applyFrames s fs) :=
  List.foldl_hom (inDelay n f q) fun u g =>
    applyResult_inDelay n f q u.params (parse u.params.pmOrder g) u

/-- A DRAIN that is a form's last stage does to the registers what the DRAIN alone does, and completes
under the form's name (R148). -/
theorem drained_inDelay (residue : List Byte) (s : State) :
    drained residue (inDelay n f q s) = { applyFrames s (seg s.rxq) with
      phase := .idle, cmdBusy := false
      fb := (seg s.rxq).getLast?.getD s.fb
      tb := f
      rxq := residue
      txq := q
      stage := .wait
      latched := n
      completions := s.completions ++ [⟨n, .bit (applyFrames s (seg s.rxq)).applied⟩] } := by
  unfold drained
  rw [applyFrames_inDelay]
  rfl

/-- Without arrivals the delay ends at once, and the DRAIN runs to its end (R142, R120, R131). -/
theorem runFor_inDelay {s : State} (hq : s.quiet) (hp : s.phase = .idle) : ∃ k,
    runFor k (inDelay n f q s)
      = .next (drained (drainResidue s.rxq) (inDelay n f q { s with applied := false })) := by
  have hstart := drainStarts.2 (inDelay n f q s) (blocksTurn_quiet hq) hp rfl rfl
  rw [afterTurn_quiet (s := inDelay n f q s) hq] at hstart
  obtain ⟨k, -, hrun⟩ :=
    drainRunsToCompletion { inDelay n f q s with applied := false, phase := .test } hq rfl
  refine ⟨k + 1, (runFor_next hstart).trans (hrun.trans (congrArg _ ?_))⟩
  exact drained_with (s := inDelay n f q { s with applied := false }) rfl .test _

end InDelay

/-- Settles O52: acceptance, stage 2, then the DRAIN of the form in its delay. -/
theorem commandFormRunsItsFourStages : Obligations.CommandFormRunsItsFourStages := by
  unfold Obligations.CommandFormRunsItsFourStages
  intro s i r hq hs hw hi hf
  obtain ⟨f, hform, hexec⟩ := exec_form_idle hs hw hi hf
  have hsend := startForm_then_sends hs.1 r.name f (blocksTurn_quiet hq)
  rw [afterTurn_quiet hq] at hsend
  obtain ⟨k, hrun⟩ := runFor_inDelay r.name f (s.txq ++ f.bytes) hq hs.1
  rw [drained_inDelay] at hrun
  exact ⟨f, hform, _, k + 1, hexec, rfl, (runFor_next hsend).trans hrun⟩

end Sys2Proof.Machine
end

section
/-! Proofs, the commands family (44_commands.md): the accessors (R150 to R156), and what writes a result
register (R149). -/

namespace Sys2Proof.Machine

/-! The accessors. -/

/-- An accessor, which completes with what it reads of the state, writes nothing else (R150 to R156). -/
theorem exec_accessor_idle {s : State} (hs : s.Idle) {i : Instr} {n : OpName} (reads : State → Result)
    (h : exec i s = onPort i (fun u => .next (complete n (reads u) u)) s) :
    exec i s = .next { s with completions := s.completions ++ [⟨n, reads s⟩] } :=
  h.trans (onPort_idle hs)

/-- Settles O32: each accessor reads its register, and the registers have their values at reset. -/
theorem accessorsReturnTheirRegister : Obligations.AccessorsReturnTheirRegister := by
  unfold Obligations.AccessorsReturnTheirRegister
  refine ⟨fun s hs => ⟨?_, ⟨s.mode == 1#1, beq_iff_eq, ?_⟩, ⟨s.power == 1#1, beq_iff_eq, ?_⟩, ?_⟩,
    rfl, show 0#1 ≠ 1#1 by decide, rfl, rfl⟩
  · exact exec_accessor_idle hs (fun u => .u16 u.devid) rfl
  · exact exec_accessor_idle hs (fun u => .bit (u.mode == 1#1)) rfl
  · exact exec_accessor_idle hs (fun u => .bit (u.power == 1#1)) rfl
  · exact exec_accessor_idle hs (fun u => .u8 u.interval) rfl

/-- A raw count of tenths is ten times its value, which lies between 0.0 and 6553.5 (R115). -/
theorem tenthsValue_spec (raw : Word16) : tenthsValue raw * 10 = (raw.toNat : Rat)
    ∧ 0 ≤ tenthsValue raw ∧ tenthsValue raw ≤ 65535 / 10 := by
  have hmax : (raw.toNat : Rat) ≤ 65535 := by exact_mod_cast Nat.le_of_lt_succ raw.isLt
  unfold tenthsValue
  refine ⟨div_mul_cancel₀ _ (by norm_num), by positivity, ?_⟩
  gcongr

/-- Settles O33: the raw count of the register is the result. -/
theorem readingsAreTenths : Obligations.ReadingsAreTenths := by
  unfold Obligations.ReadingsAreTenths
  refine ⟨rfl, rfl, fun s hs => ⟨?_, ?_⟩⟩
  · obtain ⟨hvalue, hmin, hmax⟩ := tenthsValue_spec s.pm25
    exact ⟨s.pm25, hvalue, hmin, hmax, exec_accessor_idle hs (fun u => .tenths u.pm25) rfl⟩
  · obtain ⟨hvalue, hmin, hmax⟩ := tenthsValue_spec s.pm10
    exact ⟨s.pm10, hvalue, hmin, hmax, exec_accessor_idle hs (fun u => .tenths u.pm10) rfl⟩

/-! The result registers (R149). -/

theorem Accepted.results_eq {s t : State} (h : Accepted s t) : t.results = s.results := by
  cases h <;> rfl

/-- Of the micro-steps APPLY alone writes a result register (R126, R149). -/
theorem Micro.results_eq {s t : State} (h : Micro s t) (hp : s.phase ≠ .apply) :
    t.results = s.results := by
  cases h with
  | accept _ ha => exact ha.results_eq
  | apply ha => exact absurd ha hp
  | _ => rfl

/-- Settles O45: the micro-steps one by one, then the other agents, of which RESET alone writes. -/
theorem onlyApplyWritesResultRegisters : Obligations.OnlyApplyWritesResultRegisters := by
  unfold Obligations.OnlyApplyWritesResultRegisters
  intro s t h hne
  cases hb : s.blocksTurn with
  | true =>
    exact .inl ⟨rfl, not_not.1 fun hp => hne ((micro_of_step hb h).results_eq hp)⟩
  | false =>
    rcases step_env hb h with ⟨b, -, rfl⟩ | ⟨-, rfl⟩ | ⟨r, -, rfl⟩ | ⟨hr, rfl⟩
    · exact absurd rfl hne
    · exact absurd rfl hne
    · exact absurd rfl hne
    · exact .inr hr

end Sys2Proof.Machine
end

section
/-! Proofs, the exceptions family (60_exceptions.md): no well-formed instruction stops the run (R160, R168). -/

namespace Sys2Proof.Machine

/-- A command row, run, is its frame written to the transport (R141). -/
theorem exec_command_frame {i : Instr} {f : CmdFrame} {s : State} (h : encode s.params i = .cmd f) :
    exec i s = .next (sendFrame f s) := by
  cases i <;> simp only [encode, reduceCtorEq, Code.cmd.injEq] at h <;> subst h <;> rfl

/-- An operation with operands in its domain is accepted on an idle block and held on a busy one (R8, R12). -/
theorem exec_op_next_of_wf {c : Params} {i : Instr} {r : OpRequest} {s : State} (h : encode c i = .op r)
    (hw : i.wf s.params = true) : ∃ t, exec i s = .next t := by
  by_cases hs : s.Idle
  · rcases exec_op_cases h hs with ⟨-, _, _, he⟩ | ⟨-, he⟩ | ⟨-, _, _, _, _, -, -, he⟩ | ⟨hbad, -⟩
    · exact ⟨_, he⟩
    · exact ⟨_, he⟩
    · exact ⟨_, he⟩
    · exact absurd hw (by simp [hbad])
  · exact ⟨_, exec_op_busy h hs⟩

/-- Settles O37, format by format: a frame of either format always has a next state, and an operation is
refused only for operands outside its domain. -/
theorem wellFormedInstructionsComplete : Obligations.WellFormedInstructionsComplete := by
  unfold Obligations.WellFormedInstructionsComplete
  intro i s hw
  cases h : encode s.params i with
  | cmd f => exact ⟨_, exec_command_frame h⟩
  | inb f =>
    obtain ⟨_, _, _, _, _, _, _, _, he⟩ := exec_inbound_frame h s
    exact ⟨_, he⟩
  | op r => exact exec_op_next_of_wf h hw

end Sys2Proof.Machine
end

section
/-! Proofs, the reset-and-hazards family (70_reset_and_hazards.md): an idle block waits (R182, R8). -/

namespace Sys2Proof.Machine

/-- Settles O36: an idle block with nothing held has completed everything, and such a block waits. -/
theorem idleBlockWaits : Obligations.IdleBlockWaits := by
  unfold Obligations.IdleBlockWaits
  intro s hb hidle hheld
  have hall : s.allCompleted := ⟨hidle, hheld⟩
  exact step_waits hb hall

end Sys2Proof.Machine
end
